-- ==== Sys2Proof/Word.lean ====
section
/-! DEFINITION. The widths of the block's values (00_scope.md R9, R10): every number is unsigned, of 8, 16 or 32
bits. -/

namespace Sys2Proof

/-- `u8`: a received or sent character. -/
abbrev Byte := BitVec 8

/-- `u16`: a holding register, a quantity, a CRC value. -/
abbrev Word := BitVec 16

/-- `u32`: the millisecond clock (`TIME_W = 32`, R6). -/
abbrev Millis := BitVec 32

end Sys2Proof
end

