-- ==== Sys2Proof/Config.lean ====
section
/-! DEFINITION. The block's numeric constants (00_scope.md R3, R6), its parameters (R6) and the free values. The
constants are named once here. The parameters a model must take as arguments are the record `Params`; the state
carries one (log 1). -/

namespace Sys2Proof
namespace Config

/-- `CRC_POLY` (R6). -/
def crcPoly : Word := 0xA001#16
/-- `CRC_SEED` (R6). -/
def crcSeed : Word := 0xFFFF#16
/-- `FRAME_MAX` (R6, D5). -/
abbrev frameMax : Nat := 256
/-- `MIN_FRAME` (R6, D6). -/
abbrev minFrame : Nat := 4
/-- `CNT_W`, the width of the four statistics counters (R6, D9). -/
abbrev cntW : Nat := 16
/-- `QTY_MAX_RD` (R6, D13). -/
abbrev qtyMaxRd : Nat := 125
/-- `QTY_MAX_WR` (R6, D15). -/
abbrev qtyMaxWr : Nat := 123
/-- `COMM_TIMEOUT_MS` (R6). -/
abbrev commTimeoutMs : Nat := 2000
/-- `WDT_TIMEOUT_MS` (R6). -/
abbrev wdtTimeoutMs : Nat := 1000
/-- `AMP_MIN` (R6). -/
abbrev ampMin : Nat := 20
/-- `AMP_MAX` (R6). -/
abbrev ampMax : Nat := 100
/-- `NUM_UNITS` (R6): the one place that says how many units there are (R3). -/
abbrev numUnits : Nat := 4

/-- The last address of the register map (R50). -/
abbrev lastAddress : Nat := 0xFFFF

/-- What a word of `REG` reads as that nothing has written. DESIGN CHOICE, unsafe (log 3): the spec calls it a draw
(R50). -/
def unwrittenWord : Word := 0x0000#16

/-- FREE VALUE: a 16-bit field of `req` whose bytes the frame does not have (R24: "not defined"; no rule reads it).
Given the frame and the field's offset in it. DESIGN CHOICE, safe (log 6). -/
opaque undefinedWord : List Byte → Nat → Word

/-- FREE VALUE: the 8-bit field of `req` whose byte the frame does not have (R24). DESIGN CHOICE, safe (log 6). -/
opaque undefinedByte : List Byte → Nat → Byte

/-- FREE VALUE: the byte-string field of `req` when the frame has no such bytes (R24). DESIGN CHOICE, safe (log 6). -/
opaque undefinedData : List Byte → Nat → List Byte

end Config

/-- The kind of a field of the register map (20_memory.md R62): a boolean control, an amplitude setpoint, a
read-only status word, or (NONE) an unassigned offset. -/
inductive FieldKind where
  | bool | ampl | word | unassigned
  deriving DecidableEq, Repr

/-- The names of the register map's fields (20_memory.md R62). A per-unit name carries its unit, 1 to `NUM_UNITS`. -/
inductive FieldName where
  | sysStatus | commErrCount | activeCount | activeMask
  | globalEnable | globalEstop | globalAmplitude
  | startStop (unit : Nat) | amplitude (unit : Nat) | overloadReset (unit : Nat)
  | powerW (unit : Nat) | frequencyHz (unit : Nat) | statusFlags (unit : Nat) | actualAmplitude (unit : Nat)
  deriving DecidableEq, Repr

/-- One assigned address of `FIELD_MAP` (20_memory.md R62). -/
structure FieldEntry where
  addr : Nat
  name : FieldName
  kind : FieldKind
  deriving DecidableEq, Repr

/-- `STATUS_BITS`: the bit position of each condition in the System Status word (30_encoding.md R90). -/
structure StatusBits where
  ok : Fin 16
  emergencyStop : Fin 16
  commFault : Fin 16
  fault : Fin 16
  watchdogFault : Fin 16
  deriving DecidableEq, Repr

/-- The parameters a model takes as arguments (00_scope.md R6). They are fixed for a run (20_memory.md R77). -/
structure Params where
  /-- `SLAVE_ID`, 1 to 247. -/
  slaveId : Byte
  /-- `FC10_SUPPORTED`. -/
  fc10Supported : Bool
  /-- `RXQ_DEPTH`, at least 1. -/
  rxqDepth : Nat
  /-- `LIVENESS_ON_EXCEPTION`. -/
  livenessOnException : Bool
  /-- `WDT_INDEPENDENT`. -/
  wdtIndependent : Bool
  /-- `FIELD_MAP`: its assigned addresses; every other address has kind NONE. -/
  fieldMap : List FieldEntry
  /-- `STATUS_BITS`. -/
  statusBits : StatusBits
  deriving DecidableEq, Repr

namespace Config

/-- The fields of unit `n` in the default `FIELD_MAP` (R62). -/
def unitFields (n : Nat) : List FieldEntry :=
  [ ⟨n * 0x100 + 0x00, .startStop n, .bool⟩,
    ⟨n * 0x100 + 0x01, .amplitude n, .ampl⟩,
    ⟨n * 0x100 + 0x02, .overloadReset n, .bool⟩,
    ⟨n * 0x100 + 0x10, .powerW n, .word⟩,
    ⟨n * 0x100 + 0x11, .frequencyHz n, .word⟩,
    ⟨n * 0x100 + 0x12, .statusFlags n, .word⟩,
    ⟨n * 0x100 + 0x13, .actualAmplitude n, .word⟩ ]

/-- The System Status and Global Control fields of the default `FIELD_MAP` (R62). -/
def globalFields : List FieldEntry :=
  [ ⟨0x0000, .sysStatus, .word⟩,
    ⟨0x0001, .commErrCount, .word⟩,
    ⟨0x0002, .activeCount, .word⟩,
    ⟨0x0003, .activeMask, .word⟩,
    ⟨0x0010, .globalEnable, .bool⟩,
    ⟨0x0011, .globalEstop, .bool⟩,
    ⟨0x0012, .globalAmplitude, .ampl⟩ ]

/-- The default `FIELD_MAP` (R62, D16). -/
def defaultFieldMap : List FieldEntry :=
  globalFields ++ (List.range numUnits).flatMap (fun i => unitFields (i + 1))

/-- The default `STATUS_BITS` (R90, D29). -/
def defaultStatusBits : StatusBits :=
  { ok := 0, emergencyStop := 1, commFault := 2, fault := 3, watchdogFault := 4 }

/-- The parameters of the test vectors (R6 and 95_test_vectors.md section 0): DESIGN CHOICE for the three OPEN ones
(log 1). -/
def defaultParams : Params :=
  { slaveId := 0x01#8, fc10Supported := true, rxqDepth := 64, livenessOnException := true,
    wdtIndependent := true, fieldMap := defaultFieldMap, statusBits := defaultStatusBits }

end Config
end Sys2Proof
end

