-- ==== Sys2Proof/Machine/Bits.lean ====
section
/-! DEFINITION. Byte order (00_scope.md R10, 20_memory.md R68): the halves of a word, and a word from two bytes, high
byte first. -/

namespace Sys2Proof.Machine

/-- `hi(w) = w[15:8]` (R10). -/
def hi (w : Word) : Byte := w.extractLsb' 8 8

/-- `lo(w) = w[7:0]` (R10). -/
def lo (w : Word) : Byte := w.extractLsb' 0 8

/-- `be16(h, l)` (R10). -/
def be16 (h l : Byte) : Word := (h.setWidth 16 <<< 8) ||| l.setWidth 16

/-- A word as the line carries it, high byte first (R68). -/
def wordBytes (w : Word) : List Byte := [hi w, lo w]

/-- The byte at index `i` of a byte string (R10). Every use has `i` below the length; beyond it the answer 0 is never
used (log 16). -/
def byteAt (f : List Byte) (i : Nat) : Byte := f.getD i 0#8

end Sys2Proof.Machine
end

