-- ==== Sys2Proof/Machine/Crc.lean ====
section
/-! DEFINITION. The CRC-16 functions (40_crc.md R112 to R118): bit-serial, reflected, no final XOR. The engine uses
them; the CRC unit's register is in Machine/CrcUnit.lean. -/

namespace Sys2Proof.Machine

/-- One turn of R112's loop: shift right, and XOR the polynomial in when the bit shifted out is 1. -/
def crcShift (c : Word) : Word :=
  if c.getLsbD 0 then (c >>> 1) ^^^ Config.crcPoly else c >>> 1

/-- `n` turns of R112's loop. -/
def crcShifts : Nat → Word → Word
  | 0, c => c
  | n + 1, c => crcShifts n (crcShift c)

/-- `crc_step8(c, b)` (R112). -/
def crcStep8 (c : Word) (b : Byte) : Word := crcShifts 8 (c ^^^ b.setWidth 16)

/-- `crc_step8` folded over a byte string from a given value. -/
def crcFold (c : Word) (s : List Byte) : Word := s.foldl crcStep8 c

/-- `crc16(s)` (R114). -/
def crc16 (s : List Byte) : Word := crcFold Config.crcSeed s

/-- `crc_append(s)` (R116): the CRC follows low byte first. -/
def crcAppend (s : List Byte) : List Byte := s ++ [lo (crc16 s), hi (crc16 s)]

/-- `crc_ok(f)`, for frames of at least two bytes (R115). -/
def crcOk (f : List Byte) : Bool :=
  crc16 (f.take (f.length - 2)) == be16 (byteAt f (f.length - 1)) (byteAt f (f.length - 2))

end Sys2Proof.Machine
end

