-- ==== Sys2Proof/Syntax.lean ====
section
/-! DEFINITION. The block's instructions (30_encoding.md R84, R87; decision D1): the MODBUS function codes with the
operands a request frame carries, and the port events. One constructor per row of spec/opcode_table.json. Also the
records the decoder and the receive queue speak of. -/

namespace Sys2Proof

/-- The instructions. The function codes carry the operands of their request frame (R81 to R83, R92); `addr` is the
frame's address byte. -/
inductive Instr where
  /-- READ_HOLDING, function 0x03 (R160). -/
  | readHolding (addr : Byte) (start qty : Word)
  /-- WRITE_SINGLE, function 0x06 (R164): register address and value. -/
  | writeSingle (addr : Byte) (target value : Word)
  /-- WRITE_MULTIPLE, function 0x10 (R168): `data` holds the value bytes, high byte of each register first. -/
  | writeMultiple (addr : Byte) (start qty : Word) (bcount : Byte) (data : List Byte)
  /-- ILLEGAL_FUNCTION, every other function byte (R173). -/
  | illegalFunction (addr fc : Byte)
  /-- RESET, event 0x0 (R270). -/
  | reset
  /-- RX_BYTE, event 0x1 (R137). -/
  | rxByte (b : Byte)
  /-- RX_GAP, event 0x2 (R138). -/
  | rxGap
  /-- RX_ERR, event 0x3 (R139). -/
  | rxErr
  /-- SERVICE, event 0x4 (R186). -/
  | service
  /-- TICK, event 0x5 (R201). -/
  | tick
  /-- MON_EVAL, event 0x6 (R202). -/
  | monEval
  /-- ESTOP_SET, event 0x7 (R206). -/
  | estopSet
  /-- ESTOP_CLEAR, event 0x8 (R207). -/
  | estopClear
  /-- STATS_CLEAR, event 0x9 (R213). -/
  | statsClear
  /-- CRC_INIT, event 0xA (R110). -/
  | crcInit
  /-- CRC_UPDATE, event 0xB (R111). -/
  | crcUpdate (b : Byte)
  /-- RESERVED_EVENT, events 0xC to 0xF (R85). -/
  | reservedEvent (code : BitVec 4)
  deriving DecidableEq, Repr

/-- An instruction as the block receives it: an event code with its operand byte at a port (R84), or the bytes of a
whole request frame, address and CRC included (R80). -/
inductive Encoded where
  | port (code : BitVec 4) (operand : Byte)
  | frame (bytes : List Byte)
  deriving DecidableEq, Repr

/-- The decoded request, the source's ModbusFrame (10_state.md R24). -/
structure Request where
  addr : Byte
  fc : Byte
  start : Word
  qty : Word
  bcount : Byte
  data : List Byte
  len : Nat
  deriving DecidableEq, Repr

/-- Why a frame is dropped as malformed (60_exceptions.md R242). -/
inductive DropCause where
  | poisoned | short | crc | length
  deriving DecidableEq, Repr

/-- The number R242 gives each counted cause (0 is IGNORE, which is no cause of a malformed drop). -/
def DropCause.number : DropCause → Nat
  | .poisoned => 1
  | .short => 2
  | .crc => 3
  | .length => 4

/-- The three ways a frame leaves VALIDATING (41_framing.md R149). -/
inductive Verdict where
  | accept (r : Request)
  | malformed (cause : DropCause)
  | ignore
  deriving DecidableEq, Repr

/-- The exception codes the block sends (30_encoding.md R88). -/
inductive ExceptionCode where
  | illegalFunction | illegalDataAddress | illegalDataValue
  deriving DecidableEq, Repr

/-- The kind of a receive-queue entry (10_state.md R29). -/
inductive RxKind where
  | byte (b : Byte)
  | gap
  | err
  deriving DecidableEq, Repr

/-- A receive-queue entry (10_state.md R29): `lost` says that entries were lost right after this one (R131). -/
structure RxEntry where
  kind : RxKind
  lost : Bool
  deriving DecidableEq, Repr

end Sys2Proof
end

