-- ==== Sys2Proof/Machine/Operands.lean ====
section
/-! DEFINITION. The operand forms: address classes and rights (20_memory.md R51 to R53, R60), the fields of
`FIELD_MAP` (R62), what may be written where (R63), the constraints on the parameters (00_scope.md R6, 20_memory.md R62),
and the operands of a request (30_encoding.md R92). Addresses are naturals: range arithmetic is exact (R185). -/

namespace Sys2Proof.Machine

/-- The address classes (R60). -/
inductive AddrClass where
  | ss
  | gc
  | uc (unit : Nat)
  | us (unit : Nat)
  | unmapped
  deriving DecidableEq, Repr

/-- The protocol's rights (R60). -/
inductive Access where
  | ro | rw | noAccess
  deriving DecidableEq, Repr

/-- `class(a)` (R60). Unit `n`'s blocks start at `n << 8`. -/
def addrClass (a : Nat) : AddrClass :=
  if a ≤ 0x000F then .ss
  else if 0x0010 ≤ a ∧ a ≤ 0x001F then .gc
  else if 1 ≤ a / 0x100 ∧ a / 0x100 ≤ Config.numUnits ∧ a % 0x100 ≤ 0x0F then .uc (a / 0x100)
  else if 1 ≤ a / 0x100 ∧ a / 0x100 ≤ Config.numUnits ∧ 0x10 ≤ a % 0x100 ∧ a % 0x100 ≤ 0x1F then .us (a / 0x100)
  else .unmapped

/-- `access` (R60). -/
def access : AddrClass → Access
  | .ss => .ro
  | .us _ => .ro
  | .gc => .rw
  | .uc _ => .rw
  | .unmapped => .noAccess

/-- `mapped(a)` (R60). -/
def mapped (a : Nat) : Bool := addrClass a != .unmapped

/-- The entry of `FIELD_MAP` at an address, if it assigns one (R62). -/
def fieldAt (m : List FieldEntry) (a : Nat) : Option FieldEntry := m.find? (fun e => e.addr == a)

/-- `kind(a)` (R62): NONE where the map assigns nothing. -/
def kindAt (p : Params) (a : Nat) : FieldKind :=
  match fieldAt p.fieldMap a with
  | some e => e.kind
  | none => .unassigned

/-- `name(a)` (R62). -/
def nameAt (p : Params) (a : Nat) : Option FieldName := (fieldAt p.fieldMap a).map (·.name)

/-- The address `FIELD_MAP` gives a name (R62). -/
def addressOf (p : Params) (n : FieldName) : Option Nat :=
  (p.fieldMap.find? (fun e => e.name == n)).map (·.addr)

/-- `writable(a)` (R63). -/
def writable (p : Params) (a : Nat) : Bool :=
  mapped a && access (addrClass a) == .rw && kindAt p a != .unassigned

/-- `legal(a, v)` (R63): never clamped (C1). -/
def legal (p : Params) (a : Nat) (v : Word) : Bool :=
  match kindAt p a with
  | .bool => v == 0#16 || v == 1#16
  | .ampl => decide (Config.ampMin ≤ v.toNat) && decide (v.toNat ≤ Config.ampMax)
  | .word => false
  | .unassigned => false

/-- Whether the addresses `start` to `start + qty - 1` stay within the register map (R185). -/
def rangeFits (start qty : Nat) : Bool := decide (start + qty - 1 ≤ Config.lastAddress)

/-- The addresses `start` to `start + qty - 1` in ascending order. -/
def addressRange (start qty : Nat) : List Nat := (List.range qty).map (start + ·)

/-- `val(i) = be16(fbuf[7+2i], fbuf[8+2i])` (R92), read from `data = fbuf[7 .. flen-3]` (R24, log 13). -/
def valueAt (data : List Byte) (i : Nat) : Word := be16 (byteAt data (2 * i)) (byteAt data (2 * i + 1))

/-- The `qty` address and value pairs of a Write Multiple request, in ascending address order (R170, R171). -/
def writePairs (start qty : Nat) (data : List Byte) : List (Nat × Word) :=
  (List.range qty).map (fun i => (start + i, valueAt data i))

/-- The four System Status words the monitor publishes (R56). -/
def publishedNames : List FieldName := [.sysStatus, .commErrCount, .activeCount, .activeMask]

/-- The three constraints R62 puts on `FIELD_MAP`, and that the list is a map on u16 addresses (log 19). -/
def fieldMapOk (m : List FieldEntry) : Bool :=
  m.all (fun e => decide (e.addr ≤ Config.lastAddress)) &&
  decide ((m.map (·.addr)).Nodup) &&
  m.all (fun e => !(e.kind == .bool || e.kind == .ampl) || access (addrClass e.addr) == .rw) &&
  m.countP (fun e => e.name == .globalEstop) == 1 &&
  publishedNames.all (fun n => m.countP (fun e => e.name == n) == 1) &&
  m.all (fun e => !(publishedNames.contains e.name) || addrClass e.addr == .ss)

/-- The constraints on the parameters (R6, R62). Those on the named constants are the theorem
`Config.constants_fit` of Laws/Address.lean. -/
def paramsOk (p : Params) : Bool :=
  decide (1 ≤ p.slaveId.toNat) && decide (p.slaveId.toNat ≤ 247) && decide (1 ≤ p.rxqDepth) && fieldMapOk p.fieldMap

end Sys2Proof.Machine
end

