-- ==== Sys2Proof/WellFormed.lean ====
section
/-! DEFINITION. When an instruction is one the block can receive under given parameters: its operands fit the layouts of
30_encoding.md R81 to R85 and its function byte selects it (R87). -/

namespace Sys2Proof

/-- Whether a function byte selects one of the three named dispatch rules (R87). -/
def selectsNamed (p : Params) (fc : Byte) : Bool :=
  fc == 0x03#8 || fc == 0x06#8 || (fc == 0x10#8 && p.fc10Supported)

/-- The well-formed instructions. A request is addressed to this slave (R143); a Write Multiple is present, its byte
count is the number of its value bytes (R83, R144) and its frame fits FRAME_MAX (R22); an illegal function byte selects no
named rule (R87); a reserved code is 0xC to 0xF (R85). -/
def Instr.wellFormed (p : Params) : Instr → Bool
  | .readHolding addr _ _ => addr == p.slaveId
  | .writeSingle addr _ _ => addr == p.slaveId
  | .writeMultiple addr _ _ bcount data =>
      addr == p.slaveId && p.fc10Supported && data.length == bcount.toNat
        && decide (9 + data.length ≤ Config.frameMax)
  | .illegalFunction addr fc => addr == p.slaveId && !selectsNamed p fc
  | .reset => true
  | .rxByte _ => true
  | .rxGap => true
  | .rxErr => true
  | .service => true
  | .tick => true
  | .monEval => true
  | .estopSet => true
  | .estopClear => true
  | .statsClear => true
  | .crcInit => true
  | .crcUpdate _ => true
  | .reservedEvent code => decide (12 ≤ code.toNat)

end Sys2Proof
end

