-- ==== Sys2Proof/Decode.lean ====
section
/-! DEFINITION. The decoder, total on any input and rejecting by name, and after it the encoder, both from 30_encoding.md
R80 to R97. A frame is validated (41_framing.md R140 to R145), its request assembled (R146, R92) and its function byte
selects the instruction (R87). A port event is selected by its 4-bit code (R84). -/

namespace Sys2Proof

open Machine (byteAt be16 hi lo crcOk crcAppend wordBytes)

/-- Why the decoder rejects a frame: a counted drop with its cause, or another slave's frame (60_exceptions.md R242). -/
inductive DecodeError where
  | malformed (cause : DropCause)
  | otherSlave
  deriving DecidableEq, Repr

/-- The per-function length check (41_framing.md R144). -/
def lengthOk (p : Params) (f : List Byte) : Bool :=
  if byteAt f 1 == 0x03#8 || byteAt f 1 == 0x06#8 then f.length == 8
  else if byteAt f 1 == 0x10#8 && p.fc10Supported then
    decide (9 ≤ f.length) && f.length == 9 + (byteAt f 6).toNat
  else true

/-- The request assembled from a frame (41_framing.md R146, 30_encoding.md R92). A field whose bytes the frame does not
have is a free value (R24, log 6). -/
def parseRequest (f : List Byte) : Request :=
  { addr := byteAt f 0
    fc := byteAt f 1
    start := if 6 ≤ f.length then be16 (byteAt f 2) (byteAt f 3) else Config.undefinedWord f 2
    qty := if 8 ≤ f.length then be16 (byteAt f 4) (byteAt f 5) else Config.undefinedWord f 4
    bcount := if 9 ≤ f.length then byteAt f 6 else Config.undefinedByte f 6
    data := if 9 ≤ f.length then (f.drop 7).take (f.length - 9) else Config.undefinedData f 7
    len := f.length }

/-- The whole VALIDATING step's decision, in the order of R145: POISONED, SHORT, CRC, address, LENGTH, accept. -/
def classify (p : Params) (poisoned : Bool) (f : List Byte) : Verdict :=
  if poisoned then .malformed .poisoned
  else if f.length < Config.minFrame then .malformed .short
  else if !crcOk f then .malformed .crc
  else if byteAt f 0 != p.slaveId then .ignore
  else if !lengthOk p f then .malformed .length
  else .accept (parseRequest f)

/-- The function-code map (30_encoding.md R87, 42_dispatch.md R174): exactly one dispatch rule for a request. -/
def selectFunction (p : Params) (r : Request) : Instr :=
  if r.fc = 0x03#8 then .readHolding r.addr r.start r.qty
  else if r.fc = 0x06#8 then .writeSingle r.addr r.start r.qty
  else if r.fc = 0x10#8 ∧ p.fc10Supported = true then .writeMultiple r.addr r.start r.qty r.bcount r.data
  else .illegalFunction r.addr r.fc

/-- The port events (30_encoding.md R84, R85). The operand byte of an event without an operand is not looked at. -/
def decodePort (code : BitVec 4) (b : Byte) : Instr :=
  match code.toNat with
  | 0x0 => .reset
  | 0x1 => .rxByte b
  | 0x2 => .rxGap
  | 0x3 => .rxErr
  | 0x4 => .service
  | 0x5 => .tick
  | 0x6 => .monEval
  | 0x7 => .estopSet
  | 0x8 => .estopClear
  | 0x9 => .statsClear
  | 0xA => .crcInit
  | 0xB => .crcUpdate b
  | _ => .reservedEvent code

/-- The decoder. A frame of more than FRAME_MAX bytes is overlong, which poisons it (41_framing.md R133, R140). -/
def decode (p : Params) : Encoded → Except DecodeError Instr
  | .port code b => .ok (decodePort code b)
  | .frame f =>
      match classify p (decide (Config.frameMax < f.length)) f with
      | .accept r => .ok (selectFunction p r)
      | .malformed cause => .error (.malformed cause)
      | .ignore => .error .otherSlave

/-- The bytes of a request frame before its CRC (R81 to R83); for the catch-all row the shortest frame, address and
function byte (R173). Empty for a port event. -/
def requestBody : Instr → List Byte
  | .readHolding addr start qty => [addr, 0x03#8] ++ wordBytes start ++ wordBytes qty
  | .writeSingle addr target value => [addr, 0x06#8] ++ wordBytes target ++ wordBytes value
  | .writeMultiple addr start qty bcount data =>
      [addr, 0x10#8] ++ wordBytes start ++ wordBytes qty ++ [bcount] ++ data
  | .illegalFunction addr fc => [addr, fc]
  | .reset | .rxByte _ | .rxGap | .rxErr | .service | .tick | .monEval | .estopSet | .estopClear
  | .statsClear | .crcInit | .crcUpdate _ | .reservedEvent _ => []

/-- The encoder: a whole frame with its CRC, low byte first (R80), or an event code and operand byte (R84). -/
def encode : Instr → Encoded
  | .readHolding addr start qty => .frame (crcAppend (requestBody (.readHolding addr start qty)))
  | .writeSingle addr target value => .frame (crcAppend (requestBody (.writeSingle addr target value)))
  | .writeMultiple addr start qty bcount data =>
      .frame (crcAppend (requestBody (.writeMultiple addr start qty bcount data)))
  | .illegalFunction addr fc => .frame (crcAppend (requestBody (.illegalFunction addr fc)))
  | .reset => .port 0x0#4 0#8
  | .rxByte b => .port 0x1#4 b
  | .rxGap => .port 0x2#4 0#8
  | .rxErr => .port 0x3#4 0#8
  | .service => .port 0x4#4 0#8
  | .tick => .port 0x5#4 0#8
  | .monEval => .port 0x6#4 0#8
  | .estopSet => .port 0x7#4 0#8
  | .estopClear => .port 0x8#4 0#8
  | .statsClear => .port 0x9#4 0#8
  | .crcInit => .port 0xA#4 0#8
  | .crcUpdate b => .port 0xB#4 b
  | .reservedEvent code => .port code 0#8

/-- The wire byte of an exception code (30_encoding.md R88). -/
def ExceptionCode.byte : ExceptionCode → Byte
  | .illegalFunction => 0x01#8
  | .illegalDataAddress => 0x02#8
  | .illegalDataValue => 0x03#8

/-- The 11-bit coding of a queue entry (30_encoding.md R89): `lost`, kind, byte. -/
def encodeEntry (e : RxEntry) : BitVec 11 :=
  (BitVec.ofBool e.lost).append <|
    match e.kind with
    | .byte b => (0#2).append b
    | .gap => (1#2).append 0#8
    | .err => (2#2).append 0#8

/-- Reading the coding of R89 back. Kind 11 is never produced and is rejected; the byte field of a GAP or ERR is 0. -/
def decodeEntry (w : BitVec 11) : Option RxEntry :=
  match (w.extractLsb' 8 2).toNat with
  | 0 => some ⟨.byte (w.extractLsb' 0 8), w.getLsbD 10⟩
  | 1 => if w.extractLsb' 0 8 = 0#8 then some ⟨.gap, w.getLsbD 10⟩ else none
  | 2 => if w.extractLsb' 0 8 = 0#8 then some ⟨.err, w.getLsbD 10⟩ else none
  | _ => none

/-! ## Words as spec/opcode_table.json numbers them (log 15) -/

/-- Byte `i` of a table word of `nbits` bits: bit 0 is the least significant bit of the first byte, and every bit above
`nbits` is 0. -/
def tableByte (nbits w i : Nat) : Byte := BitVec.ofNat 8 ((w % 2 ^ nbits) >>> (8 * i))

/-- What the table word stands for: a function byte that matches one of the table's three 8-bit rows (or, for a word of
no bits, the row that fixes none), else an event code when bits 7 to 4 are 0, else any other function byte. A request
frame is completed with this slave's address, operand bytes from the word's later bytes (0 above `nbits`) and its
CRC. -/
def tableEncoded (slave : Byte) (nbits w : Nat) : Encoded :=
  let fc := tableByte nbits w 0
  let operands (n : Nat) : List Byte := (List.range n).map (fun i => tableByte nbits w (i + 1))
  if nbits = 0 then .frame (crcAppend [slave, fc])
  else if nbits < 8 then .port (fc.setWidth 4) 0#8
  else if fc = 0x03#8 ∨ fc = 0x06#8 then .frame (crcAppend ([slave, fc] ++ operands 4))
  else if fc = 0x10#8 then .frame (crcAppend ([slave, fc] ++ operands (5 + (tableByte nbits w 5).toNat)))
  else if fc.toNat < 16 then .port (fc.setWidth 4) (tableByte nbits w 1)
  else .frame (crcAppend [slave, fc])

/-- The instruction the decoder reads from a word of spec/opcode_table.json (log 15). -/
def decodeTableWord (nbits w : Nat) : Option Instr :=
  match decode Config.defaultParams (tableEncoded Config.defaultParams.slaveId nbits w) with
  | .ok i => some i
  | .error _ => none

end Sys2Proof
end

