-- ==== Sys2Proof/Machine/State.lean ====
section
/-! DEFINITION. The state (10_state.md R20 to R41) as plain data: the block's own elements, its parameters, the input
levels it samples, and the model's own fields for the environment and for the frames sent. -/

namespace Sys2Proof.Machine

/-- The register map `REG` (20_memory.md R50): address and word pairs in one canonical form (`Memory.wf`). The map's
smallest addressable unit is the 16-bit word (log 27). -/
abbrev Memory := List (Nat × Word)

/-- A statistics counter, `CNT_W` bits wide (10_state.md R28). -/
abbrev Counter := BitVec Config.cntW

/-- The protocol state (10_state.md R21). `req` is defined only in DISPATCHING (R24) and `rbuf` only in RESPONDING
(R25), so those two values carry them (log 5). -/
inductive PState where
  | idle
  | receiving
  | validating
  | dispatching (req : Request)
  | responding (rbuf : List Byte)
  | halted
  deriving DecidableEq, Repr

/-- The reported state of a Sonicator Controller (10_state.md R30). -/
inductive UnitState where
  | idle | starting | running | stopping | fault
  deriving DecidableEq, Repr

/-- `unit_state[1 .. NUM_UNITS]` (10_state.md R30): entry `n` is unit `n + 1`. -/
abbrev Units := Vector UnitState Config.numUnits

/-- One thing the outside world does between the block's events (30_encoding.md R84, R95). -/
inductive Stimulus where
  /-- An event at a port: its 4-bit code and operand byte (R84). -/
  | event (code : BitVec 4) (operand : Byte)
  /-- The platform's free-running 1 ms strobe (R202). -/
  | strobe
  /-- The clock: `@t` (R95, R26). -/
  | clock (t : Millis)
  /-- `SET estop_in` (R95, R37). -/
  | setEstopIn (b : Bool)
  /-- `SET tx_ready` (R95, R37). -/
  | setTxReady (b : Bool)
  /-- `SET init_ok` (R95, R37). -/
  | setInitOk (b : Bool)
  /-- `SET unit_state[n+1]` (R95, R30). -/
  | setUnit (n : Fin Config.numUnits) (u : UnitState)
  /-- An agent outside the block changes a word of `REG` (R50, R65). -/
  | outsideWrite (a : Word) (v : Word)
  /-- The front-end will append an entry in the middle of a SERVICE, `after` engine steps after the entry before it
  (R8, R186, log 9). -/
  | scheduleArrival (after : Nat) (k : RxKind)
  deriving DecidableEq, Repr

/-- An entry the front-end appends in the middle of a SERVICE, after so many engine steps (R8, R186, log 9). -/
structure Arrival where
  after : Nat
  kind : RxKind
  deriving DecidableEq, Repr

/-- Why the machine stops with a fault (60_exceptions.md R256). -/
inductive Fault where
  /-- Raised by `step` when a parameter breaks a constraint of R6 or R62. Safe: the spec gives such a block no meaning
  (log 12). -/
  | parameterConstraint
  deriving DecidableEq, Repr

/-- Why an event has no step (60_exceptions.md R256). -/
inductive Refusal where
  /-- An instruction that has no meaning in this model yet; raised only by an arm of `exec`. Safe. -/
  | notModelled (mnemonic : String)
  /-- A reserved event code, 0xC to 0xF, in any state (R85). Safe: the spec has the model refuse it. -/
  | reservedEvent
  /-- Any event but RESET, RX_BYTE, RX_GAP and RX_ERR in HALTED (R85, R272). Safe: the spec has the model refuse it. -/
  | halted
  /-- A function code run outside DISPATCHING, where its step is not enabled (R174). Safe: no run of `step` does it
  (log 21). -/
  | notDispatching
  deriving DecidableEq, Repr

/-- The state. -/
structure State where
  /-- The parameters (00_scope.md R6); no step changes them (R77, log 1). -/
  cfg : Params
  /-- `pstate`, with `req` and `rbuf` (R21, R24, R25). -/
  pstate : PState
  /-- `fbuf[0 .. flen-1]` (R22, log 4). -/
  fbuf : List Byte
  /-- `cur_bad` (R23). -/
  curBad : Bool
  /-- `next_bad` (R23). -/
  nextBad : Bool
  /-- `crc`, the CRC unit's register (R27). -/
  crc : Word
  /-- `requests_received` (R28). -/
  requestsReceived : Counter
  /-- `responses_sent` (R28). -/
  responsesSent : Counter
  /-- `crc_errors` (R28). -/
  crcErrors : Counter
  /-- `timeout_errors` (R28). -/
  timeoutErrors : Counter
  /-- `rxq`, head first (R29). -/
  rxq : List RxEntry
  /-- `last_comm_ms` (R31). -/
  lastCommMs : Millis
  /-- `last_tick_ms` (R32). -/
  lastTickMs : Millis
  /-- `comm_fault` (R33). -/
  commFault : Bool
  /-- `wdt_fault` (R34). -/
  wdtFault : Bool
  /-- `estop` (R35). -/
  estop : Bool
  /-- `REG` (R38, R50). -/
  reg : Memory
  /-- Input `now` (R26, log 7). -/
  now : Millis
  /-- Input `unit_state` (R30, log 7). -/
  unitState : Units
  /-- Input `estop_in` (R37, log 7), one level for a whole event (log 28). -/
  estopIn : Bool
  /-- Input `tx_ready` (R37, log 7), one level for a whole event (log 28). -/
  txReady : Bool
  /-- Input `init_ok` (R37, log 7). -/
  initOk : Bool
  /-- What the outside world does next (log 8). -/
  script : List Stimulus
  /-- What the front-end appends in the middle of a SERVICE (R8, log 9). -/
  arrivals : List Arrival
  /-- The frames handed to the transmit port, oldest first (R180, log 14). -/
  tx : List (List Byte)
  deriving DecidableEq, Repr

/-- `flen` (R22). -/
def State.flen (s : State) : Nat := s.fbuf.length

/-- The machine right after RESET with `init_ok` true and `t0 = 0` (10_state.md R41, 70_reset_and_hazards.md R270). The
parameters, the inputs and the memory a power-on leaves are named in logs 1, 3 and 7. -/
def State.reset : State :=
  { cfg := Config.defaultParams
    pstate := .idle
    fbuf := []
    curBad := false
    nextBad := false
    crc := Config.crcSeed
    requestsReceived := 0#_
    responsesSent := 0#_
    crcErrors := 0#_
    timeoutErrors := 0#_
    rxq := []
    lastCommMs := 0#_
    lastTickMs := 0#_
    commFault := false
    wdtFault := false
    estop := false
    reg := []
    now := 0#_
    unitState := Vector.replicate Config.numUnits .idle
    estopIn := false
    txReady := true
    initOk := true
    script := []
    arrivals := []
    tx := [] }

/-- What an instruction's meaning answers. -/
abbrev Result := Host.Outcome State Fault Refusal

end Sys2Proof.Machine
end

