-- ==== Sys2Proof/Machine/Ops.lean ====
section
/-! DEFINITION. The named operations over memory and state: reading and writing `REG` (20_memory.md R50), the queue
(41_framing.md R130, R131), accepting and dropping a frame (R146 to R148), building and sending a response (42_dispatch.md
R179, R180), the MODBUS exception (R175), the emergency-stop latch (43_monitor.md R206, R207). Each is one record update,
so that what it leaves alone is seen at once. -/

namespace Sys2Proof.Machine

/-! ## The register map -/

/-- `REG[a]` (R50). -/
def Memory.read : Memory → Nat → Word
  | [], _ => Config.unwrittenWord
  | (b, v) :: rest, a => if a = b then v else Memory.read rest a

/-- `REG[a] <- v` (R50), in canonical form: ascending addresses, and no entry that equals what an unlisted word reads
as. -/
def Memory.write : Memory → Nat → Word → Memory
  | [], a, v => if v = Config.unwrittenWord then [] else [(a, v)]
  | (b, w) :: rest, a, v =>
      if a < b then (if v = Config.unwrittenWord then (b, w) :: rest else (a, v) :: (b, w) :: rest)
      else if a = b then (if v = Config.unwrittenWord then rest else (a, v) :: rest)
      else (b, w) :: Memory.write rest a v

/-- Every listed address is above `n`, they rise strictly, each is an address of the map and holds a word that differs
from the unlisted one. -/
def Memory.wfFrom : Nat → Memory → Bool
  | _, [] => true
  | n, (a, v) :: rest =>
      decide (n ≤ a) && decide (a ≤ Config.lastAddress) && v != Config.unwrittenWord && Memory.wfFrom (a + 1) rest

/-- The canonical form of the register map. -/
def Memory.wf (m : Memory) : Bool := Memory.wfFrom 0 m

/-- `MemRead(start, qty)` (R50). -/
def memRead (m : Memory) (start qty : Nat) : List Word := (addressRange start qty).map m.read

/-- `MemWrite` of address and value pairs in ascending order (R50). -/
def memWrite (m : Memory) (pairs : List (Nat × Word)) : Memory :=
  pairs.foldl (fun m p => m.write p.1 p.2) m

/-! ## The receive queue -/

/-- `overflow`: the newest queued entry is marked (R131). -/
def markNewest : List RxEntry → List RxEntry
  | [] => []
  | [e] => [{ e with lost := true }]
  | e :: f :: rest => e :: markNewest (f :: rest)

/-- The queue after `rx_push(k)` at a given depth (R130, R131). -/
def pushEntry (depth : Nat) (k : RxKind) (q : List RxEntry) : List RxEntry :=
  if q.length < depth then q ++ [{ kind := k, lost := false }] else markNewest q

/-- `rx_push(k)` (R130). -/
def rxPush (k : RxKind) (s : State) : State := { s with rxq := pushEntry s.cfg.rxqDepth k s.rxq }

/-! ## The end of validation -/

/-- `drop Malformed(cause)` (R147). The cause is recorded nowhere. -/
def dropMalformed (s : State) : State :=
  { s with crcErrors := s.crcErrors + 1#_, fbuf := [], curBad := false, pstate := .idle }

/-- `drop Ignore` (R148). -/
def dropIgnore (s : State) : State := { s with fbuf := [], curBad := false, pstate := .idle }

/-- Accept (R146). -/
def acceptRequest (r : Request) (s : State) : State :=
  { s with
    requestsReceived := s.requestsReceived + 1#_
    lastCommMs := if s.cfg.livenessOnException then s.now else s.lastCommMs
    curBad := false
    pstate := .dispatching r }

/-! ## Responses and the MODBUS exception -/

/-- `emit_response(payload, exc)` (R179). -/
def emitResponse (payload : List Byte) (exc : Bool) (s : State) : State :=
  { s with
    pstate := .responding (crcAppend payload)
    lastCommMs := if !s.cfg.livenessOnException && !exc then s.now else s.lastCommMs }

/-- `respond(payload)` (R179). -/
def respond (payload : List Byte) (s : State) : State := emitResponse payload false s

/-- Taking the block's one kind of exception: `raise ModbusException(code)` (R175, R86). It saves no state and enters no
handler (60_exceptions.md R247); the return to IDLE is the RESPONDING step (R248, `sendResponse`). -/
def raiseModbus (addr fc : Byte) (code : ExceptionCode) (s : State) : State :=
  emitResponse [addr, fc ||| 0x80#8, code.byte] true s

/-- The RESPONDING step: the whole frame goes to the transmit port (R180). -/
def sendResponse (rbuf : List Byte) (s : State) : State :=
  { s with
    tx := s.tx ++ [rbuf]
    responsesSent := s.responsesSent + 1#_
    fbuf := []
    pstate := .idle }

/-! ## The emergency-stop latch -/

/-- `ESTOP_SET`'s effect (R206). -/
def setEstop (s : State) : State := { s with estop := true }

/-- `ESTOP_CLEAR`'s effect: only while `estop_in` is false (R207). -/
def clearEstop (s : State) : State := { s with estop := if s.estopIn then s.estop else false }

/-- The latch after `estop_signal(a, v)` (R167), given `estop_in` and the latch before. -/
def estopAfterWrite (p : Params) (estopIn : Bool) (e : Bool) (w : Nat × Word) : Bool :=
  if nameAt p w.1 = some .globalEstop then
    if w.2 = 1#16 then true else if estopIn then e else false
  else e

/-- The writes of one accepted request, in ascending address order, then `estop_signal` for each in the same order
(R166, R167, R171). -/
def storeWords (pairs : List (Nat × Word)) (s : State) : State :=
  { s with
    reg := memWrite s.reg pairs
    estop := pairs.foldl (estopAfterWrite s.cfg s.estopIn) s.estop }

/-! ## When an event has a step -/

/-- A block event is refused in HALTED (30_encoding.md R85). -/
def unlessHalted (f : State → State) (s : State) : Result :=
  if s.pstate = .halted then .refused .halted else .next (f s)

/-- A function code's step is enabled in DISPATCHING (42_dispatch.md R174). -/
def whenDispatching (f : State → State) (s : State) : Result :=
  match s.pstate with
  | .dispatching _ => .next (f s)
  | .halted => .refused .halted
  | .idle | .receiving | .validating | .responding _ => .refused .notDispatching

/-! ## What the outside world does -/

/-- The effect of a stimulus that is no event (R95, R50, R8); an event or a strobe has none here. -/
def applyInput : Stimulus → State → State
  | .event _ _, s => s
  | .strobe, s => s
  | .clock t, s => { s with now := t }
  | .setEstopIn b, s => { s with estopIn := b }
  | .setTxReady b, s => { s with txReady := b }
  | .setInitOk b, s => { s with initOk := b }
  | .setUnit n u, s => { s with unitState := s.unitState.set n.val u n.isLt }
  | .outsideWrite a v, s => { s with reg := s.reg.write a.toNat v }
  | .scheduleArrival after k, s => { s with arrivals := s.arrivals ++ [{ after := after, kind := k }] }

end Sys2Proof.Machine
end

