-- ==== Sys2Proof/Machine/CrcUnit.lean ====
section
/-! DEFINITION. The CRC unit's events (40_crc.md R110, R111). They change the register `crc` alone (R113). -/

namespace Sys2Proof.Machine

/-- CRC_INIT (R110). -/
def execCrcInit (s : State) : Result := unlessHalted (fun s => { s with crc := Config.crcSeed }) s

/-- CRC_UPDATE (R111). -/
def execCrcUpdate (b : Byte) (s : State) : Result := unlessHalted (fun s => { s with crc := crcStep8 s.crc b }) s

end Sys2Proof.Machine
end

