-- ==== Sys2Proof/Machine/Functions.lean ====
section
/-! DEFINITION. The MODBUS function codes (42_dispatch.md R160 to R173, R185): each one's checks in the spec's order, its
effect on the state, and its meaning, which is that effect where the DISPATCHING step is enabled (R174). -/

namespace Sys2Proof.Machine

/-! ## Checks: the exception a request gets, if any -/

/-- `check_read` (R161): quantity, then the end of the range, then every address. -/
def checkRead (start qty : Nat) : Option ExceptionCode :=
  if qty < 1 ∨ qty > Config.qtyMaxRd then some .illegalDataValue
  else if !rangeFits start qty then some .illegalDataAddress
  else if (addressRange start qty).any (fun a => !mapped a) then some .illegalDataAddress
  else none

/-- `check_write1` (R165): address, then value. -/
def checkWrite1 (p : Params) (a : Nat) (v : Word) : Option ExceptionCode :=
  if !writable p a then some .illegalDataAddress
  else if !legal p a v then some .illegalDataValue
  else none

/-- `check_wr_count` (R169). -/
def checkWrCount (qty bcount : Nat) : Option ExceptionCode :=
  if qty < 1 ∨ qty > Config.qtyMaxWr ∨ bcount ≠ 2 * qty then some .illegalDataValue else none

/-- `check_wr_range` (R170). -/
def checkWrRange (p : Params) (start qty : Nat) : Option ExceptionCode :=
  if !rangeFits start qty then some .illegalDataAddress
  else if (addressRange start qty).any (fun a => !writable p a) then some .illegalDataAddress
  else none

/-- `check_wr_values` (R170). -/
def checkWrValues (p : Params) (pairs : List (Nat × Word)) : Option ExceptionCode :=
  if pairs.any (fun w => !legal p w.1 w.2) then some .illegalDataValue else none

/-- The checks of function 0x10 in R168's order: count, range, values. -/
def checkWriteMultiple (p : Params) (start qty bcount : Nat) (data : List Byte) : Option ExceptionCode :=
  match checkWrCount qty bcount with
  | some code => some code
  | none =>
      match checkWrRange p start qty with
      | some code => some code
      | none => checkWrValues p (writePairs start qty data)

/-! ## Responses -/

/-- `read_response(words)` before its CRC (R163). -/
def readResponse (addr : Byte) (qty : Word) (words : List Word) : List Byte :=
  [addr, 0x03#8, BitVec.ofNat 8 (2 * qty.toNat)] ++ words.flatMap wordBytes

/-! ## Effects -/

/-- READ_HOLDING's step (R160, R162). -/
def readHoldingStep (addr : Byte) (start qty : Word) (s : State) : State :=
  match checkRead start.toNat qty.toNat with
  | some code => raiseModbus addr 0x03#8 code s
  | none => respond (readResponse addr qty (memRead s.reg start.toNat qty.toNat)) s

/-- WRITE_SINGLE's step (R164, R166, R167). The response is the request without its CRC (R82, log 13). -/
def writeSingleStep (addr : Byte) (target value : Word) (s : State) : State :=
  match checkWrite1 s.cfg target.toNat value with
  | some code => raiseModbus addr 0x06#8 code s
  | none =>
      respond ([addr, 0x06#8] ++ wordBytes target ++ wordBytes value)
        (storeWords [(target.toNat, value)] s)

/-- WRITE_MULTIPLE's step (R168, R171, R172). -/
def writeMultipleStep (addr : Byte) (start qty : Word) (bcount : Byte) (data : List Byte) (s : State) : State :=
  match checkWriteMultiple s.cfg start.toNat qty.toNat bcount.toNat data with
  | some code => raiseModbus addr 0x10#8 code s
  | none =>
      respond ([addr, 0x10#8] ++ wordBytes start ++ wordBytes qty)
        (storeWords (writePairs start.toNat qty.toNat data) s)

/-- ILLEGAL_FUNCTION's step (R173). -/
def illegalFunctionStep (addr fc : Byte) (s : State) : State := raiseModbus addr fc .illegalFunction s

/-! ## Meanings -/

/-- READ_HOLDING (R160). -/
def execReadHolding (addr : Byte) (start qty : Word) (s : State) : Result :=
  whenDispatching (readHoldingStep addr start qty) s

/-- WRITE_SINGLE (R164). -/
def execWriteSingle (addr : Byte) (target value : Word) (s : State) : Result :=
  whenDispatching (writeSingleStep addr target value) s

/-- WRITE_MULTIPLE (R168). -/
def execWriteMultiple (addr : Byte) (start qty : Word) (bcount : Byte) (data : List Byte) (s : State) : Result :=
  whenDispatching (writeMultipleStep addr start qty bcount data) s

/-- ILLEGAL_FUNCTION (R173). -/
def execIllegalFunction (addr fc : Byte) (s : State) : Result := whenDispatching (illegalFunctionStep addr fc) s

end Sys2Proof.Machine
end

