-- ==== Sys2Proof/Machine/Flags.lean ====
section
/-! DEFINITION. The status flags and what is computed from them (10_state.md R39, 43_monitor.md R203 to R211): the ages,
`force_fault`, the System Status word, the active units, and the diagnostic snapshot. -/

namespace Sys2Proof.Machine

/-- An age, modulo 2^32 (R205). -/
def age (now t : Millis) : Millis := now - t

/-- A timeout is the strict test `age > limit` (R205). -/
def timedOut (now t : Millis) (limit : Nat) : Bool := decide (limit < (age now t).toNat)

/-- `force_fault` (R209): combinational. -/
def forceFault (s : State) : Bool :=
  decide (s.pstate = .halted) || s.commFault || s.wdtFault || s.estop || s.estopIn

/-- Whether some unit reports FAULT (R210). -/
def unitFault (us : Units) : Bool := us.toList.any (· == .fault)

/-- A condition at its bit of the System Status word (R90). -/
def statusBit (b : Bool) (i : Nat) : Word := if b then 1#16 <<< i else 0#16

/-- The System Status word of the four conditions (R210, R90): OK exactly when none holds. -/
def statusOf (bits : StatusBits) (es comm fault wdt : Bool) : Word :=
  statusBit es bits.emergencyStop.val ||| statusBit comm bits.commFault.val ||| statusBit fault bits.fault.val
    ||| statusBit wdt bits.watchdogFault.val ||| statusBit (!(es || comm || fault || wdt)) bits.ok.val

/-- `status_word()` (R210). -/
def statusWord (s : State) : Word :=
  statusOf s.cfg.statusBits (s.estop || s.estopIn) s.commFault (unitFault s.unitState || s.wdtFault) s.wdtFault

/-- `ACTIVE_COUNT`: how many units are RUNNING (R211). -/
def activeCount (us : Units) : Word := BitVec.ofNat 16 (us.toList.countP (· == .running))

/-- Bit `i`, `i + 1`, ... for each RUNNING unit of a list whose first unit takes bit `i`. -/
def maskFrom : Nat → List UnitState → Word
  | _, [] => 0#16
  | i, u :: us => statusBit (u == .running) i ||| maskFrom (i + 1) us

/-- `ACTIVE_MASK`: bit `n - 1` for each RUNNING unit `n` (R211). -/
def activeMask (us : Units) : Word := maskFrom 0 us.toList

/-- `evaluate()` (R203, R204). Both conditions are computed from the timestamps; the counter counts rising edges. -/
def evaluate (s : State) : State :=
  { s with
    timeoutErrors :=
      if timedOut s.now s.lastCommMs Config.commTimeoutMs && !s.commFault then s.timeoutErrors + 1#_
      else s.timeoutErrors
    commFault := timedOut s.now s.lastCommMs Config.commTimeoutMs
    wdtFault := timedOut s.now s.lastTickMs Config.wdtTimeoutMs
    estop := s.estop || s.estopIn }

/-- The value `publish()` stores under each published name (R211). -/
def publishedValue (s : State) : FieldName → Word
  | .sysStatus => statusWord s
  | .commErrCount => s.crcErrors.setWidth 16
  | .activeCount => activeCount s.unitState
  | .activeMask => activeMask s.unitState
  | .globalEnable | .globalEstop | .globalAmplitude | .startStop _ | .amplitude _ | .overloadReset _
  | .powerW _ | .frequencyHz _ | .statusFlags _ | .actualAmplitude _ => 0#16

/-- The address and value pairs `publish()` writes, in R211's order. -/
def publishedPairs (s : State) : List (Nat × Word) :=
  publishedNames.filterMap (fun n => (addressOf s.cfg n).map (fun a => (a, publishedValue s n)))

/-- `publish()` (R211): written directly, with no access check (R56). -/
def publish (s : State) : State := { s with reg := memWrite s.reg (publishedPairs s) }

/-- The code of `pstate` in the diagnostic view (10_state.md R21). -/
def PState.code : PState → Nat
  | .idle => 0
  | .receiving => 1
  | .validating => 2
  | .dispatching _ => 3
  | .responding _ => 4
  | .halted => 5

/-- The diagnostic snapshot (10_state.md R40). -/
structure Snapshot where
  pstate : Nat
  requestsReceived : Counter
  responsesSent : Counter
  crcErrors : Counter
  timeoutErrors : Counter
  lastCommMs : Millis
  lastTickMs : Millis
  commFault : Bool
  wdtFault : Bool
  estop : Bool
  forceFault : Bool
  queued : Nat
  deriving DecidableEq, Repr

/-- Reading the snapshot (R40): a function of the state, so it changes nothing. -/
def snapshot (s : State) : Snapshot :=
  { pstate := s.pstate.code
    requestsReceived := s.requestsReceived
    responsesSent := s.responsesSent
    crcErrors := s.crcErrors
    timeoutErrors := s.timeoutErrors
    lastCommMs := s.lastCommMs
    lastTickMs := s.lastTickMs
    commFault := s.commFault
    wdtFault := s.wdtFault
    estop := s.estop
    forceFault := forceFault s
    queued := s.rxq.length }

end Sys2Proof.Machine
end

