-- ==== Sys2Proof/Machine/Monitor.lean ====
section
/-! DEFINITION. The safety monitor's events (43_monitor.md R201, R202, R206, R207, R213). -/

namespace Sys2Proof.Machine

/-- TICK (R201). -/
def execTick (s : State) : Result := unlessHalted (fun s => { s with lastTickMs := s.now }) s

/-- MON_EVAL (R202): evaluation, then publication. -/
def execMonEval (s : State) : Result := unlessHalted (fun s => publish (evaluate s)) s

/-- ESTOP_SET (R206). -/
def execEstopSet (s : State) : Result := unlessHalted setEstop s

/-- ESTOP_CLEAR (R207). -/
def execEstopClear (s : State) : Result := unlessHalted clearEstop s

/-- STATS_CLEAR (R213). -/
def execStatsClear (s : State) : Result :=
  unlessHalted
    (fun s => { s with requestsReceived := 0#_, responsesSent := 0#_, crcErrors := 0#_, timeoutErrors := 0#_ }) s

end Sys2Proof.Machine
end

