-- ==== Sys2Proof/Machine/Receive.lean ====
section
/-! DEFINITION. The receive front-end's events (41_framing.md R137 to R139). They append to the queue in every `pstate`,
HALTED included. -/

namespace Sys2Proof.Machine

/-- RX_BYTE (R137). -/
def execRxByte (b : Byte) (s : State) : Result := .next (rxPush (.byte b) s)

/-- RX_GAP (R138). -/
def execRxGap (s : State) : Result := .next (rxPush .gap s)

/-- RX_ERR (R139). -/
def execRxErr (s : State) : Result := .next (rxPush .err s)

end Sys2Proof.Machine
end

