-- ==== Sys2Proof/Machine/Service.lean ====
section
/-! DEFINITION. The engine's steps (41_framing.md R132 to R148, 42_dispatch.md R174, R180) and SERVICE, which runs them
until none is enabled (R186). -/

namespace Sys2Proof.Machine

/-! ## Taking an entry in IDLE or RECEIVING -/

/-- IDLE takes an entry (R132, R134, R135). -/
def takeInIdle (k : RxKind) (s : State) : State :=
  match k with
  | .byte b => { s with fbuf := [b], curBad := s.nextBad, nextBad := false, pstate := .receiving }
  | .gap => s
  | .err => { s with fbuf := [], curBad := true, nextBad := false, pstate := .receiving }

/-- RECEIVING takes an entry (R133, R134, R135). -/
def takeInReceiving (k : RxKind) (s : State) : State :=
  match k with
  | .byte b => if s.fbuf.length < Config.frameMax then { s with fbuf := s.fbuf ++ [b] } else { s with curBad := true }
  | .gap => { s with pstate := .validating }
  | .err => { s with curBad := true }

/-- The `lost` mark of the entry just taken (R136). -/
def applyLost (e : RxEntry) (s : State) : State :=
  if e.lost then
    match e.kind with
    | .gap => { s with nextBad := true }
    | .byte _ => { s with curBad := true }
    | .err => { s with curBad := true }
  else s

/-! ## The enabled step -/

/-- The VALIDATING step (R140 to R148). -/
def validateStep (s : State) : State :=
  match classify s.cfg s.curBad s.fbuf with
  | .malformed _ => dropMalformed s
  | .ignore => dropIgnore s
  | .accept r => acceptRequest r s

/-- A decoded function code's step. A port event is no function code and is never selected (R174). -/
def functionStep (i : Instr) (s : State) : State :=
  match i with
  | .readHolding addr start qty => readHoldingStep addr start qty s
  | .writeSingle addr target value => writeSingleStep addr target value s
  | .writeMultiple addr start qty bcount data => writeMultipleStep addr start qty bcount data s
  | .illegalFunction addr fc => illegalFunctionStep addr fc s
  | .reset | .rxByte _ | .rxGap | .rxErr | .service | .tick | .monEval | .estopSet | .estopClear
  | .statsClear | .crcInit | .crcUpdate _ | .reservedEvent _ => s

/-- The one enabled engine step, if there is one (R186's table). -/
def engineStep (s : State) : Option State :=
  match s.pstate with
  | .idle =>
      match s.rxq with
      | [] => none
      | e :: rest => some (applyLost e (takeInIdle e.kind { s with rxq := rest }))
  | .receiving =>
      match s.rxq with
      | [] => none
      | e :: rest => some (applyLost e (takeInReceiving e.kind { s with rxq := rest }))
  | .validating => some (validateStep s)
  | .dispatching r => some (functionStep (selectFunction s.cfg r) s)
  | .responding rbuf => if s.txReady then some (sendResponse rbuf s) else none
  | .halted => none

/-! ## SERVICE -/

/-- The front-end appends in the middle of the event the entry whose turn it is (R8, R186, log 9). -/
def takeArrival (s : State) : Option State :=
  match s.arrivals with
  | [] => none
  | x :: rest => if x.after = 0 then some (rxPush x.kind { s with arrivals := rest }) else none

/-- An engine step brings the next arrival one step nearer (log 9). -/
def countArrivals (s : State) : State :=
  match s.arrivals with
  | [] => s
  | x :: rest => { s with arrivals := { x with after := x.after - 1 } :: rest }

/-- R186's loop: while some engine step is enabled, take it; arrivals that are due come first (log 9). DESIGN CHOICE
(log 28, unsafe): `tx_ready` and `estop_in` keep one level from the start of the event to its end, also between two
responses of one SERVICE; R8 fixes only `REG` and `unit_state` during an event. -/
def serviceLoop : Nat → State → State
  | 0, s => s
  | n + 1, s =>
      match takeArrival s with
      | some t => serviceLoop n t
      | none =>
          match engineStep s with
          | some t => serviceLoop n (countArrivals t)
          | none => s

/-- How far `pstate` is from IDLE or RECEIVING. -/
def PState.stepsLeft : PState → Nat
  | .idle => 0
  | .receiving => 0
  | .validating => 3
  | .dispatching _ => 2
  | .responding _ => 1
  | .halted => 0

/-- A bound on the steps of one SERVICE (R186: "It always ends"): each step or arrival makes it smaller. -/
def serviceBound (s : State) : Nat := 4 * s.rxq.length + 5 * s.arrivals.length + s.pstate.stepsLeft

/-- One service of the engine (R186). -/
def serviceStep (s : State) : State := serviceLoop (serviceBound s + 1) s

/-- SERVICE (R186). -/
def execService (s : State) : Result := unlessHalted serviceStep s

end Sys2Proof.Machine
end

