-- ==== Sys2Proof/Machine/System.lean ====
section
/-! DEFINITION. RESET (70_reset_and_hazards.md R270, 10_state.md R41) and the reserved event codes (30_encoding.md
R85). -/

namespace Sys2Proof.Machine

/-- RESET's effect (R270): `REG`, the parameters, the inputs, what the outside world does next and the frames already sent
are not touched. -/
def resetStep (s : State) : State :=
  { s with
    pstate := if s.initOk then .idle else .halted
    fbuf := []
    curBad := false
    nextBad := false
    rxq := []
    crc := Config.crcSeed
    requestsReceived := 0#_
    responsesSent := 0#_
    crcErrors := 0#_
    timeoutErrors := 0#_
    lastCommMs := s.now
    lastTickMs := s.now
    commFault := false
    wdtFault := false
    estop := false }

/-- RESET (R270): never refused, in any state. -/
def execReset (s : State) : Result := .next (resetStep s)

/-- A reserved event code is refused in any state (R85). -/
def execReservedEvent (_code : BitVec 4) (_s : State) : Result := .refused .reservedEvent

end Sys2Proof.Machine
end

