-- ==== Sys2Proof/Machine/Dispatch.lean ====
section
/-! DEFINITION. One arm per instruction. -/

namespace Sys2Proof.Machine

def exec (i : Instr) (s : State) : Host.Outcome State Fault Refusal :=
  match i with
  -- MODBUS function codes (30_encoding.md R87)
  | .readHolding addr start qty => Sys2Proof.Machine.execReadHolding addr start qty s
  | .writeSingle addr target value => Sys2Proof.Machine.execWriteSingle addr target value s
  | .writeMultiple addr start qty bcount data => Sys2Proof.Machine.execWriteMultiple addr start qty bcount data s
  | .illegalFunction addr fc => Sys2Proof.Machine.execIllegalFunction addr fc s
  -- port events (30_encoding.md R84)
  | .reset => Sys2Proof.Machine.execReset s
  | .rxByte b => Sys2Proof.Machine.execRxByte b s
  | .rxGap => Sys2Proof.Machine.execRxGap s
  | .rxErr => Sys2Proof.Machine.execRxErr s
  | .service => Sys2Proof.Machine.execService s
  | .tick => Sys2Proof.Machine.execTick s
  | .monEval => Sys2Proof.Machine.execMonEval s
  | .estopSet => Sys2Proof.Machine.execEstopSet s
  | .estopClear => Sys2Proof.Machine.execEstopClear s
  | .statsClear => Sys2Proof.Machine.execStatsClear s
  | .crcInit => Sys2Proof.Machine.execCrcInit s
  | .crcUpdate b => Sys2Proof.Machine.execCrcUpdate b s
  | .reservedEvent code => Sys2Proof.Machine.execReservedEvent code s

end Sys2Proof.Machine
end

