-- ==== Sys2Proof/Machine/Fetch.lean ====
section
/-! DEFINITION. What the machine does next (log 8, log 10): in DISPATCHING, the instruction the function byte of `req`
selects (42_dispatch.md R174); in VALIDATING, the validation; otherwise the next stimulus of the outside world. -/

namespace Sys2Proof.Machine

/-- What the next step is. -/
inductive Fetched where
  /-- Run an instruction on a state. -/
  | run (i : Instr) (s : State)
  /-- Finish the frame's validation (R140 to R148). -/
  | validate
  /-- An input changes, or nothing happens; the state after it. -/
  | idle (s : State)
  deriving DecidableEq, Repr

/-- The next stimulus taken from the script. The strobe issues MON_EVAL when WDT_INDEPENDENT, and else does not exist
(43_monitor.md R202, log 18). An empty script leaves the block waiting. -/
def fetchStimulus (s : State) : Fetched :=
  match s.script with
  | [] => .idle s
  | .event code b :: rest => .run (decodePort code b) { s with script := rest }
  | .strobe :: rest =>
      if s.cfg.wdtIndependent then .run .monEval { s with script := rest } else .idle { s with script := rest }
  | x :: rest => .idle (applyInput x { s with script := rest })

/-- What the machine does next. A state in VALIDATING or DISPATCHING lies inside a SERVICE (log 10). -/
def fetch (s : State) : Fetched :=
  match s.pstate with
  | .validating => .validate
  | .dispatching r => .run (selectFunction s.cfg r) s
  | .idle => fetchStimulus s
  | .receiving => fetchStimulus s
  | .responding _ => fetchStimulus s
  | .halted => fetchStimulus s

end Sys2Proof.Machine
end

