-- ==== Sys2Proof/Machine/Script.lean ====
section
/-! DEFINITION. The event-script syntax's pseudo-instructions (30_encoding.md R95 to R97) as expansions into stimuli. -/

namespace Sys2Proof.Machine

/-- `ITER` (R96): TICK, SERVICE, MON_EVAL. -/
def iterScript : List Stimulus := [.event 0x5#4 0#8, .event 0x4#4 0#8, .event 0x6#4 0#8]

/-- `RAWFRAME` (R97): the bytes, then a GAP. -/
def rawFrameScript (bytes : List Byte) : List Stimulus :=
  bytes.map (fun b => .event 0x1#4 b) ++ [.event 0x2#4 0#8]

/-- `FRAME` (R97): the bytes, their CRC low byte first, then a GAP. -/
def frameScript (bytes : List Byte) : List Stimulus := rawFrameScript (crcAppend bytes)

/-- The queue entries the front-end appends for a frame's bytes and its GAP (R130, R137, R138). -/
def frameEntries (bytes : List Byte) : List RxEntry :=
  bytes.map (fun b => { kind := .byte b, lost := false }) ++ [{ kind := .gap, lost := false }]

end Sys2Proof.Machine
end

