-- ==== Sys2Proof/Machine/Step.lean ====
section
/-! DEFINITION. One step: a parameter that breaks its constraints faults (60_exceptions.md R256); otherwise the machine
does what comes next. -/

namespace Sys2Proof.Machine

/-- One step. -/
def step (s : State) : Host.Outcome State Fault Refusal :=
  if paramsOk s.cfg then
    match fetch s with
    | .run i t => exec i t
    | .validate => .next (validateStep s)
    | .idle t => .next t
  else .fault .parameterConstraint

/-- The state whose very next step runs the instruction of a table word (log 15): a port event becomes the next stimulus
(a state inside a SERVICE first goes to IDLE, since it takes no stimulus); a request frame stands in `fbuf` as accepted,
with `req` assembled from it. -/
def State.withFetchWord (s : State) (nbits w : Nat) : State :=
  match tableEncoded s.cfg.slaveId nbits w with
  | .port code b =>
      match s.pstate with
      | .validating => { s with pstate := .idle, script := .event code b :: s.script }
      | .dispatching _ => { s with pstate := .idle, script := .event code b :: s.script }
      | .idle | .receiving | .responding _ | .halted => { s with script := .event code b :: s.script }
  | .frame f => { s with fbuf := f, pstate := .dispatching (parseRequest f) }

end Sys2Proof.Machine
end

