-- ==== Sys2Proof/Safety.lean ====
section
/-! DEFINITION. What the claims speak of: the invariant of the block's states, the end of a SERVICE, and the parts of the
state that two runs are compared on. -/

namespace Sys2Proof.Machine

/-- What holds of the frame in progress in each protocol state. Outside a frame the frame buffer is empty (42_dispatch.md
R180, 41_framing.md R147, R148); the poison mark is set only while a frame is received or validated (10_state.md R23); the
request is the one the frame buffer's bytes give, and passed validation (41_framing.md R146); a response fits FRAME_MAX and
carries its CRC (42_dispatch.md R179). -/
def frameOk (s : State) : Bool :=
  match s.pstate with
  | .idle => s.fbuf == [] && !s.curBad
  | .receiving => true
  | .validating => true
  | .dispatching r => !s.curBad && classify s.cfg false s.fbuf == .accept r
  | .responding rbuf => !s.curBad && decide (5 ≤ rbuf.length) && decide (rbuf.length ≤ Config.frameMax) && crcOk rbuf
  | .halted => s.fbuf == [] && !s.curBad && !s.nextBad

/-- The invariant: the register map in canonical form, the two stores within their bounds (10_state.md R22, R29), and the
frame in progress as its protocol state says. -/
def State.inv (s : State) : Bool :=
  Memory.wf s.reg && decide (s.fbuf.length ≤ Config.frameMax) && decide (s.rxq.length ≤ s.cfg.rxqDepth) && frameOk s

/-- Where a SERVICE ends (42_dispatch.md R186): IDLE or RECEIVING with an empty queue, or RESPONDING with `tx_ready`
false. -/
def serviceEnd (s : State) : Bool :=
  match s.pstate with
  | .idle => s.rxq == []
  | .receiving => s.rxq == []
  | .responding _ => !s.txReady
  | .validating => false
  | .dispatching _ => false
  | .halted => false

/-- A state without its safety part: the monitor's flags, timestamp and counter, and the inputs only the monitor reads
(42_dispatch.md R182). -/
def forgetSafety (s : State) : State :=
  { s with
    commFault := false
    wdtFault := false
    estop := false
    estopIn := false
    lastTickMs := 0#_
    timeoutErrors := 0#_
    unitState := Vector.replicate Config.numUnits .idle }

/-- How many accepted frames still await their response: one in DISPATCHING and RESPONDING (42_dispatch.md R181). -/
def awaited (s : State) : Counter :=
  match s.pstate with
  | .dispatching _ => 1#_
  | .responding _ => 1#_
  | .idle | .receiving | .validating | .halted => 0#_

end Sys2Proof.Machine
end

