-- ==== Sys2Proof/Certificates/Slice0/Obligations.lean ====
section
/-! DEFINITION. The statements for the provers. Each docstring names the rules it formalises. -/

open Sys2Proof Sys2Proof.Machine

/-! ## The CRC unit (40_crc.md) -/

/-- R110: CRC_INIT sets the register to the seed and changes nothing else; it is refused in HALTED. -/
def Obligations.CrcInitSeedsTheRegister : Prop :=
  ∀ s : State,
    (s.pstate ≠ .halted → exec .crcInit s = .next { s with crc := 0xFFFF#16 }) ∧
    (s.pstate = .halted → exec .crcInit s = .refused .halted)

/-- R111: CRC_UPDATE folds its byte into whatever the register holds (0xFFFF after reset) and changes nothing else; it
is refused in HALTED; the rule's corner values, and the six updates of its example with the frame's tail bytes. -/
def Obligations.CrcUpdateFoldsItsByte : Prop :=
  (∀ (s : State) (b : Byte),
    (s.pstate ≠ .halted → exec (.crcUpdate b) s = .next { s with crc := crcStep8 s.crc b }) ∧
    (s.pstate = .halted → exec (.crcUpdate b) s = .refused .halted)) ∧
  crcStep8 0xFFFF#16 0x00#8 = 0x40BF#16 ∧ crcStep8 0xFFFF#16 0xFF#8 = 0x00FF#16 ∧
  State.reset.crc = 0xFFFF#16 ∧
  crcFold 0xFFFF#16 [0x01#8, 0x03#8, 0x00#8, 0x00#8, 0x00#8, 0x0A#8] = 0xCDC5#16 ∧
  crcAppend [0x01#8, 0x03#8, 0x00#8, 0x00#8, 0x00#8, 0x0A#8]
    = [0x01#8, 0x03#8, 0x00#8, 0x00#8, 0x00#8, 0x0A#8, 0xC5#8, 0xCD#8]

/-- R112: the byte is XORed into the low half, then eight turns of a right shift, each XORing the polynomial in when
the bit shifted out is 1; with the rule's worked trace. -/
def Obligations.CrcStepIsEightConditionalShifts : Prop :=
  let turn : Word → Word := fun x => if x.getLsbD 0 then (x >>> 1) ^^^ 0xA001#16 else x >>> 1
  (∀ (c : Word) (b : Byte), crcStep8 c b = turn^[8] (c ^^^ b.setWidth 16)) ∧
  (0xFFFF#16 : Word) ^^^ (0x01#8).setWidth 16 = 0xFFFE#16 ∧
  (List.range 8).map (fun n => turn^[n + 1] 0xFFFE#16)
    = [0x7FFF#16, 0x9FFE#16, 0x4FFF#16, 0x87FE#16, 0x43FF#16, 0x81FE#16, 0x40FF#16, 0x807E#16] ∧
  crcStep8 0xFFFF#16 0x01#8 = 0x807E#16

/-- Derived from R112 and R118: the table-driven form equals the bit-serial step on every input. -/
def Obligations.CrcTableFormEqualsBitSerial : Prop :=
  ∀ (c : Word) (b : Byte), crcStep8 c b = (c >>> 8) ^^^ crcStep8 0#16 (c.setWidth 8 ^^^ b)

/-- R117: appending a string's CRC gives residue zero, and the CRC check of a frame is the residue being zero. -/
def Obligations.CrcResidueIsZeroExactlyWhenTheCheckHolds : Prop :=
  (∀ m : List Byte, crc16 (crcAppend m) = 0x0000#16) ∧
  (∀ f : List Byte, 2 ≤ f.length → (crcOk f = true ↔ crc16 f = 0x0000#16))

/-- Derived from R112, R115 and R119: in a frame whose CRC check holds, changing any one byte makes it fail. -/
def Obligations.OneCorruptedByteIsDetected : Prop :=
  ∀ (f : List Byte) (i : Nat) (b : Byte), 2 ≤ f.length → crcOk f = true → i < f.length → byteAt f i ≠ b →
    crcOk (f.set i b) = false

/-! ## Encodings (30_encoding.md) -/

/-- Derived from R80 to R87 and R92: decoding the encoding of any well-formed instruction gives it back, with every
operand at every value. -/
def Obligations.DecodeInvertsEncode : Prop :=
  ∀ (p : Params) (i : Instr), i.wellFormed p = true → decode p (encode i) = .ok i

/-- Derived from R80 to R83 and R92: a frame that decodes to one of the three named functions is that instruction's
encoding, byte for byte. -/
def Obligations.EncodeInvertsDecodeOnNamedFunctions : Prop :=
  ∀ (p : Params) (f : List Byte) (i : Instr), decode p (.frame f) = .ok i → selectsNamed p (byteAt f 1) = true →
    encode i = .frame f ∧ i.wellFormed p = true

/-- Derived from the tables of R84 and R85, from R81 to R83 and from the frames of 95_test_vectors.md: what each of
the sixteen event codes decodes to, and, for slave 0x01, what a frame of each function written out byte by byte
decodes to. -/
def Obligations.WrittenOutWordsDecode : Prop :=
  (∀ (p : Params) (b : Byte),
    decode p (.port 0x0#4 b) = .ok .reset ∧ decode p (.port 0x1#4 b) = .ok (.rxByte b) ∧
    decode p (.port 0x2#4 b) = .ok .rxGap ∧ decode p (.port 0x3#4 b) = .ok .rxErr ∧
    decode p (.port 0x4#4 b) = .ok .service ∧ decode p (.port 0x5#4 b) = .ok .tick ∧
    decode p (.port 0x6#4 b) = .ok .monEval ∧ decode p (.port 0x7#4 b) = .ok .estopSet ∧
    decode p (.port 0x8#4 b) = .ok .estopClear ∧ decode p (.port 0x9#4 b) = .ok .statsClear ∧
    decode p (.port 0xA#4 b) = .ok .crcInit ∧ decode p (.port 0xB#4 b) = .ok (.crcUpdate b) ∧
    decode p (.port 0xC#4 b) = .ok (.reservedEvent 0xC#4) ∧ decode p (.port 0xD#4 b) = .ok (.reservedEvent 0xD#4) ∧
    decode p (.port 0xE#4 b) = .ok (.reservedEvent 0xE#4) ∧ decode p (.port 0xF#4 b) = .ok (.reservedEvent 0xF#4)) ∧
  decode Config.defaultParams (.frame [0x01#8, 0x03#8, 0x00#8, 0x0E#8, 0x00#8, 0x03#8, 0x64#8, 0x08#8])
    = .ok (.readHolding 0x01#8 0x000E#16 0x0003#16) ∧
  decode Config.defaultParams (.frame [0x01#8, 0x06#8, 0x01#8, 0x01#8, 0x00#8, 0x32#8, 0x58#8, 0x23#8])
    = .ok (.writeSingle 0x01#8 0x0101#16 0x0032#16) ∧
  decode Config.defaultParams (.frame
      [0x01#8, 0x10#8, 0x01#8, 0x00#8, 0x00#8, 0x02#8, 0x04#8, 0x00#8, 0x01#8, 0x00#8, 0x32#8, 0x2E#8, 0x2A#8])
    = .ok (.writeMultiple 0x01#8 0x0100#16 0x0002#16 0x04#8 [0x00#8, 0x01#8, 0x00#8, 0x32#8]) ∧
  decode Config.defaultParams (.frame [0x01#8, 0x07#8, 0x41#8, 0xE2#8]) = .ok (.illegalFunction 0x01#8 0x07#8)

/-- R92: every 16-bit operand has its high byte at the lower offset, the received CRC its low byte. -/
def Obligations.OperandsAreHighByteFirst : Prop :=
  ∀ f : List Byte,
    (8 ≤ f.length →
      (parseRequest f).start.toNat = 256 * (byteAt f 2).toNat + (byteAt f 3).toNat ∧
      (parseRequest f).qty.toNat = 256 * (byteAt f 4).toNat + (byteAt f 5).toNat) ∧
    (9 ≤ f.length → (parseRequest f).bcount = byteAt f 6) ∧
    (∀ i : Nat, 8 + 2 * i + 2 < f.length →
      (valueAt (parseRequest f).data i).toNat
        = 256 * (byteAt f (7 + 2 * i)).toNat + (byteAt f (8 + 2 * i)).toNat) ∧
    (2 ≤ f.length → (crcOk f = true ↔
      (crc16 (f.take (f.length - 2))).toNat
        = (byteAt f (f.length - 2)).toNat + 256 * (byteAt f (f.length - 1)).toNat))

/-- R89: the 11-bit coding of a queue entry: bit 10 is `lost`, bits 9:8 the kind, bits 7:0 the byte; reading it back
gives the entry, and kind 11 is none. -/
def Obligations.QueueEntryCodingRoundTrips : Prop :=
  (∀ e : RxEntry, decodeEntry (encodeEntry e) = some e ∧ (encodeEntry e).getLsbD 10 = e.lost) ∧
  (∀ (b : Byte) (l : Bool), (encodeEntry ⟨.byte b, l⟩).extractLsb' 8 2 = 0#2 ∧
    (encodeEntry ⟨.byte b, l⟩).extractLsb' 0 8 = b) ∧
  (∀ l : Bool, (encodeEntry ⟨.gap, l⟩).extractLsb' 8 2 = 1#2 ∧ (encodeEntry ⟨.gap, l⟩).extractLsb' 0 8 = 0#8) ∧
  (∀ l : Bool, (encodeEntry ⟨.err, l⟩).extractLsb' 8 2 = 2#2 ∧ (encodeEntry ⟨.err, l⟩).extractLsb' 0 8 = 0#8) ∧
  (∀ w : BitVec 11, w.extractLsb' 8 2 = 3#2 → decodeEntry w = none)

/-! ## The register map (20_memory.md) -/

/-- Derived from R60 and R53: the address classes by their ranges, the unmapped gaps, and the rights of each. -/
def Obligations.AddressClassesAreTheRanges : Prop :=
  (∀ a : Nat, a ≤ 0xFFFF →
    (addrClass a = .ss ↔ a ≤ 0x000F) ∧
    (addrClass a = .gc ↔ 0x0010 ≤ a ∧ a ≤ 0x001F) ∧
    (∀ n : Nat, addrClass a = .uc n ↔ (1 ≤ n ∧ n ≤ 4 ∧ n <<< 8 ≤ a ∧ a ≤ n <<< 8 + 0x0F)) ∧
    (∀ n : Nat, addrClass a = .us n ↔ (1 ≤ n ∧ n ≤ 4 ∧ n <<< 8 + 0x10 ≤ a ∧ a ≤ n <<< 8 + 0x1F)) ∧
    (addrClass a = .unmapped ↔
      (0x0020 ≤ a ∧ a ≤ 0x00FF) ∨ (0x0120 ≤ a ∧ a ≤ 0x01FF) ∨ (0x0220 ≤ a ∧ a ≤ 0x02FF) ∨
      (0x0320 ≤ a ∧ a ≤ 0x03FF) ∨ (0x0420 ≤ a ∧ a ≤ 0xFFFF)) ∧
    (mapped a = true ↔ addrClass a ≠ .unmapped)) ∧
  access .ss = .ro ∧ access .gc = .rw ∧ (∀ n : Nat, access (.us n) = .ro ∧ access (.uc n) = .rw)

/-- Derived from R60, R62 and R63: under the default `FIELD_MAP`, which words the protocol can write, and the values
each takes. -/
def Obligations.WritableWordsAndLegalValuesOfTheDefaultMap : Prop :=
  ∀ (p : Params) (a : Nat) (v : Word), p.fieldMap = Config.defaultFieldMap →
    (writable p a = true ↔
      (a = 0x10 ∨ a = 0x11 ∨ a = 0x12) ∨
        ∃ n : Nat, 1 ≤ n ∧ n ≤ 4 ∧ (a = n * 256 ∨ a = n * 256 + 1 ∨ a = n * 256 + 2)) ∧
    (legal p a v = true ↔
      (writable p a = true ∧
        (((a = 0x12 ∨ ∃ n : Nat, 1 ≤ n ∧ n ≤ 4 ∧ a = n * 256 + 1) ∧ 20 ≤ v.toNat ∧ v.toNat ≤ 100) ∨
         (¬ (a = 0x12 ∨ ∃ n : Nat, 1 ≤ n ∧ n ≤ 4 ∧ a = n * 256 + 1) ∧ (v = 0#16 ∨ v = 1#16)))))

/-- Derived from the model's canonical form (the model's choice, logs 3 and 27): two register maps in canonical form
that read alike at every address are the same data. -/
def Obligations.RegisterMapsThatReadAlikeAreEqual : Prop :=
  ∀ m m' : Memory, m.wf = true → m'.wf = true → (∀ a : Nat, m.read a = m'.read a) → m = m'

/-! ## The receive front-end (41_framing.md) -/

/-- Derived from R130 and R137 to R139: with room in the queue each front-end event appends its unmarked entry at the
tail, in every `pstate`, and changes nothing else. -/
def Obligations.FrontEndEventsAppendAtTheTail : Prop :=
  ∀ s : State, s.rxq.length < s.cfg.rxqDepth →
    (∀ b : Byte, exec (.rxByte b) s = .next { s with rxq := s.rxq ++ [⟨.byte b, false⟩] }) ∧
    exec .rxGap s = .next { s with rxq := s.rxq ++ [⟨.gap, false⟩] } ∧
    exec .rxErr s = .next { s with rxq := s.rxq ++ [⟨.err, false⟩] }

/-- R131: with the queue full the arriving entry is lost and the newest queued entry is marked; nothing else changes.
-/
def Obligations.OverflowMarksTheNewestEntry : Prop :=
  ∀ (s : State) (q : List RxEntry) (e : RxEntry), s.rxq = q ++ [e] → s.cfg.rxqDepth ≤ s.rxq.length →
    (∀ b : Byte, exec (.rxByte b) s = .next { s with rxq := q ++ [{ e with lost := true }] }) ∧
    exec .rxGap s = .next { s with rxq := q ++ [{ e with lost := true }] } ∧
    exec .rxErr s = .next { s with rxq := q ++ [{ e with lost := true }] }

/-! ## Framing and validation (41_framing.md) -/

/-- R132 to R135: what taking the head entry does, in IDLE and in RECEIVING, for each kind of entry, with the `lost`
mark of R136 applied; nothing else changes. -/
def Obligations.TakingAnEntryFollowsTheFramingRules : Prop :=
  ∀ (s : State) (lost : Bool) (rest : List RxEntry),
    (∀ b : Byte, s.pstate = .idle → s.rxq = ⟨.byte b, lost⟩ :: rest →
      engineStep s = some { s with
        rxq := rest, fbuf := [b], curBad := s.nextBad || lost, nextBad := false, pstate := .receiving }) ∧
    (s.pstate = .idle → s.rxq = ⟨.gap, lost⟩ :: rest →
      engineStep s = some { s with rxq := rest, nextBad := s.nextBad || lost }) ∧
    (s.pstate = .idle → s.rxq = ⟨.err, lost⟩ :: rest →
      engineStep s = some { s with
        rxq := rest, fbuf := [], curBad := true, nextBad := false, pstate := .receiving }) ∧
    (∀ b : Byte, s.pstate = .receiving → s.rxq = ⟨.byte b, lost⟩ :: rest → s.fbuf.length < 256 →
      engineStep s = some { s with rxq := rest, fbuf := s.fbuf ++ [b], curBad := s.curBad || lost }) ∧
    (∀ b : Byte, s.pstate = .receiving → s.rxq = ⟨.byte b, lost⟩ :: rest → 256 ≤ s.fbuf.length →
      engineStep s = some { s with rxq := rest, curBad := true }) ∧
    (s.pstate = .receiving → s.rxq = ⟨.gap, lost⟩ :: rest →
      engineStep s = some { s with rxq := rest, nextBad := s.nextBad || lost, pstate := .validating }) ∧
    (s.pstate = .receiving → s.rxq = ⟨.err, lost⟩ :: rest →
      engineStep s = some { s with rxq := rest, curBad := true })

/-- R141, R142, R143, R147, R148, and the drops of R140 and R144: the checks of the VALIDATING step in their order,
the first that holds deciding. A malformed frame is counted once, any other slave's is not; neither changes anything
else but the end of the frame. -/
def Obligations.ValidationDropsInOrder : Prop :=
  ∀ s : State, s.pstate = .validating →
    let malformed : State :=
      { s with crcErrors := s.crcErrors + 1#16, fbuf := [], curBad := false, pstate := .idle }
    (s.curBad = true → engineStep s = some malformed) ∧
    (s.curBad = false → s.fbuf.length < 4 → engineStep s = some malformed) ∧
    (s.curBad = false → 4 ≤ s.fbuf.length → crcOk s.fbuf = false → engineStep s = some malformed) ∧
    (s.curBad = false → 4 ≤ s.fbuf.length → crcOk s.fbuf = true → byteAt s.fbuf 0 ≠ s.cfg.slaveId →
      engineStep s = some { s with fbuf := [], curBad := false, pstate := .idle }) ∧
    (s.curBad = false → 4 ≤ s.fbuf.length → crcOk s.fbuf = true → byteAt s.fbuf 0 = s.cfg.slaveId →
      (((byteAt s.fbuf 1 = 0x03#8 ∨ byteAt s.fbuf 1 = 0x06#8) ∧ s.fbuf.length ≠ 8) ∨
        (byteAt s.fbuf 1 = 0x10#8 ∧ s.cfg.fc10Supported = true ∧
          (s.fbuf.length < 9 ∨ s.fbuf.length ≠ 9 + (byteAt s.fbuf 6).toNat))) →
      engineStep s = some malformed)

/-- R146: a frame that passes every check becomes the request; it is counted, refreshes liveness when
LIVENESS_ON_EXCEPTION, and clears the poison mark; nothing else changes. -/
def Obligations.AcceptedFrameBecomesTheRequest : Prop :=
  ∀ s : State, s.pstate = .validating → s.curBad = false → 4 ≤ s.fbuf.length → crcOk s.fbuf = true →
    byteAt s.fbuf 0 = s.cfg.slaveId →
    ¬ (((byteAt s.fbuf 1 = 0x03#8 ∨ byteAt s.fbuf 1 = 0x06#8) ∧ s.fbuf.length ≠ 8) ∨
        (byteAt s.fbuf 1 = 0x10#8 ∧ s.cfg.fc10Supported = true ∧
          (s.fbuf.length < 9 ∨ s.fbuf.length ≠ 9 + (byteAt s.fbuf 6).toNat))) →
    ∃ r : Request,
      engineStep s = some { s with
        requestsReceived := s.requestsReceived + 1#16
        lastCommMs := if s.cfg.livenessOnException then s.now else s.lastCommMs
        curBad := false
        pstate := .dispatching r } ∧
      r.addr = byteAt s.fbuf 0 ∧ r.fc = byteAt s.fbuf 1 ∧ r.len = s.fbuf.length ∧
      (6 ≤ s.fbuf.length → r.start = be16 (byteAt s.fbuf 2) (byteAt s.fbuf 3)) ∧
      (8 ≤ s.fbuf.length → r.qty = be16 (byteAt s.fbuf 4) (byteAt s.fbuf 5)) ∧
      (9 ≤ s.fbuf.length → r.bcount = byteAt s.fbuf 6 ∧ r.data.length = s.fbuf.length - 9 ∧
        ∀ j : Nat, j < s.fbuf.length - 9 → byteAt r.data j = byteAt s.fbuf (7 + j))

/-- Derived from R150: while a frame is validated, dispatched or answered no entry is taken from the queue. -/
def Obligations.BusyEngineTakesNoEntry : Prop :=
  ∀ s t : State, engineStep s = some t → s.pstate ≠ .idle → s.pstate ≠ .receiving → t.rxq = s.rxq

/-- Derived from R187: every transition an engine step makes is a row of the table. -/
def Obligations.EngineTransitionsAreTheTable : Prop :=
  ∀ s t : State, engineStep s = some t →
    (s.pstate = .idle ∧ (t.pstate = .idle ∨ t.pstate = .receiving)) ∨
    (s.pstate = .receiving ∧ (t.pstate = .receiving ∨ t.pstate = .validating)) ∨
    (s.pstate = .validating ∧ (t.pstate = .idle ∨ ∃ r : Request, t.pstate = .dispatching r)) ∨
    ((∃ r : Request, s.pstate = .dispatching r) ∧ ∃ f : List Byte, t.pstate = .responding f) ∨
    ((∃ f : List Byte, s.pstate = .responding f) ∧ s.txReady = true ∧ t.pstate = .idle)

/-! ## Function codes (42_dispatch.md) -/

/-- Derived from R174: in DISPATCHING the function byte selects exactly one dispatch rule; the engine's step is that
instruction's meaning, and it leaves RESPONDING. -/
def Obligations.DispatchingRunsTheSelectedFunction : Prop :=
  ∀ (s : State) (r : Request), s.pstate = .dispatching r →
    (r.fc = 0x03#8 → selectFunction s.cfg r = .readHolding r.addr r.start r.qty) ∧
    (r.fc = 0x06#8 → selectFunction s.cfg r = .writeSingle r.addr r.start r.qty) ∧
    (r.fc = 0x10#8 → s.cfg.fc10Supported = true →
      selectFunction s.cfg r = .writeMultiple r.addr r.start r.qty r.bcount r.data) ∧
    (selectsNamed s.cfg r.fc = false → selectFunction s.cfg r = .illegalFunction r.addr r.fc) ∧
    ∃ (t : State) (rbuf : List Byte), exec (selectFunction s.cfg r) s = .next t ∧ engineStep s = some t ∧
      t.pstate = .responding rbuf

/-- Derived from R160 to R163: a read whose quantity is 1 to 125 and whose addresses are all mapped is answered with
the words as they stand; nothing changes but `pstate`, and `last_comm_ms` when LIVENESS_ON_EXCEPTION is false. -/
def Obligations.ReadHoldingAnswersTheWords : Prop :=
  ∀ (s : State) (r : Request) (addr : Byte) (start qty : Word), s.pstate = .dispatching r →
    1 ≤ qty.toNat → qty.toNat ≤ 125 → (∀ j : Nat, j < qty.toNat → mapped (start.toNat + j) = true) →
    exec (.readHolding addr start qty) s = .next { s with
      pstate := .responding (crcAppend ([addr, 0x03#8, BitVec.ofNat 8 (2 * qty.toNat)] ++
        (List.range qty.toNat).flatMap (fun j =>
          [(s.reg.read (start.toNat + j)).extractLsb' 8 8, (s.reg.read (start.toNat + j)).extractLsb' 0 8])))
      lastCommMs := if s.cfg.livenessOnException then s.lastCommMs else s.now }

/-- R161: the checks of function 0x03 in their order: a quantity outside 1 to 125 gets 0x03; then a range past 0xFFFF
or with an unmapped address gets 0x02, and nothing changes but `pstate`; every other request gets no exception. -/
def Obligations.ReadHoldingRejectsInOrder : Prop :=
  ∀ (s : State) (r : Request) (addr : Byte) (start qty : Word), s.pstate = .dispatching r →
    (qty.toNat < 1 ∨ 125 < qty.toNat →
      exec (.readHolding addr start qty) s
        = .next { s with pstate := .responding (crcAppend [addr, 0x83#8, 0x03#8]) }) ∧
    (1 ≤ qty.toNat → qty.toNat ≤ 125 →
      (0xFFFF < start.toNat + qty.toNat - 1 ∨ ∃ j : Nat, j < qty.toNat ∧ mapped (start.toNat + j) = false) →
      exec (.readHolding addr start qty) s
        = .next { s with pstate := .responding (crcAppend [addr, 0x83#8, 0x02#8]) }) ∧
    (1 ≤ qty.toNat → qty.toNat ≤ 125 → start.toNat + qty.toNat - 1 ≤ 0xFFFF →
      (∀ j : Nat, j < qty.toNat → mapped (start.toNat + j) = true) →
      ∃ (t : State) (rbuf : List Byte), exec (.readHolding addr start qty) s = .next t ∧ t.pstate = .responding rbuf ∧
        byteAt rbuf 1 = 0x03#8)

/-- Derived from R164, R166, R167 and R82: an accepted single write stores the word, signals the emergency-stop latch
when the address is GLOBAL_ESTOP, and is echoed; every other word and everything else is unchanged. -/
def Obligations.WriteSingleStoresAndEchoes : Prop :=
  ∀ (s : State) (r : Request) (addr : Byte) (target value : Word), s.pstate = .dispatching r →
    writable s.cfg target.toNat = true → legal s.cfg target.toNat value = true → s.reg.wf = true →
    ∃ m : Memory,
      exec (.writeSingle addr target value) s = .next { s with
        reg := m
        estop :=
          if nameAt s.cfg target.toNat = some .globalEstop then
            (if value = 1#16 then true else if s.estopIn then s.estop else false)
          else s.estop
        pstate := .responding (crcAppend [addr, 0x06#8, target.extractLsb' 8 8, target.extractLsb' 0 8,
          value.extractLsb' 8 8, value.extractLsb' 0 8])
        lastCommMs := if s.cfg.livenessOnException then s.lastCommMs else s.now } ∧
      m.wf = true ∧ m.read target.toNat = value ∧ ∀ a : Nat, a ≠ target.toNat → m.read a = s.reg.read a

/-- R165: the checks of function 0x06 in their order: an address that cannot be written gets 0x02, then an illegal
value gets 0x03, and nothing changes but `pstate`; every other request gets no exception. -/
def Obligations.WriteSingleRejectsInOrder : Prop :=
  ∀ (s : State) (r : Request) (addr : Byte) (target value : Word), s.pstate = .dispatching r →
    (writable s.cfg target.toNat = false →
      exec (.writeSingle addr target value) s
        = .next { s with pstate := .responding (crcAppend [addr, 0x86#8, 0x02#8]) }) ∧
    (writable s.cfg target.toNat = true → legal s.cfg target.toNat value = false →
      exec (.writeSingle addr target value) s
        = .next { s with pstate := .responding (crcAppend [addr, 0x86#8, 0x03#8]) }) ∧
    (writable s.cfg target.toNat = true → legal s.cfg target.toNat value = true →
      ∃ (t : State) (rbuf : List Byte), exec (.writeSingle addr target value) s = .next t ∧
        t.pstate = .responding rbuf ∧ byteAt rbuf 1 = 0x06#8)

/-- Derived from R168, R171, R172 and R167: an accepted multiple write stores every word, then signals the latch for
the GLOBAL_ESTOP word if the range holds it, and is answered with start and quantity; every other word and everything
else is unchanged. -/
def Obligations.WriteMultipleStoresEveryWord : Prop :=
  ∀ (s : State) (r : Request) (addr : Byte) (start qty : Word) (bcount : Byte) (data : List Byte),
    s.pstate = .dispatching r → paramsOk s.cfg = true → s.reg.wf = true →
    1 ≤ qty.toNat → qty.toNat ≤ 123 → bcount.toNat = 2 * qty.toNat →
    (∀ j : Nat, j < qty.toNat → writable s.cfg (start.toNat + j) = true ∧
      legal s.cfg (start.toNat + j) (be16 (byteAt data (2 * j)) (byteAt data (2 * j + 1))) = true) →
    ∃ (m : Memory) (e : Bool),
      exec (.writeMultiple addr start qty bcount data) s = .next { s with
        reg := m
        estop := e
        pstate := .responding (crcAppend [addr, 0x10#8, start.extractLsb' 8 8, start.extractLsb' 0 8,
          qty.extractLsb' 8 8, qty.extractLsb' 0 8])
        lastCommMs := if s.cfg.livenessOnException then s.lastCommMs else s.now } ∧
      m.wf = true ∧
      (∀ j : Nat, j < qty.toNat → m.read (start.toNat + j) = be16 (byteAt data (2 * j)) (byteAt data (2 * j + 1))) ∧
      (∀ a : Nat, (a < start.toNat ∨ start.toNat + qty.toNat ≤ a) → m.read a = s.reg.read a) ∧
      (∀ j : Nat, j < qty.toNat → nameAt s.cfg (start.toNat + j) = some .globalEstop →
        e = if be16 (byteAt data (2 * j)) (byteAt data (2 * j + 1)) = 1#16 then true
          else if s.estopIn then s.estop else false) ∧
      ((∀ j : Nat, j < qty.toNat → nameAt s.cfg (start.toNat + j) ≠ some .globalEstop) → e = s.estop)

/-- R169, R170: the checks of function 0x10 in their order: count (0x03), then range (0x02), then values (0x03), and
nothing changes but `pstate`; every other request gets no exception. -/
def Obligations.WriteMultipleRejectsInOrder : Prop :=
  ∀ (s : State) (r : Request) (addr : Byte) (start qty : Word) (bcount : Byte) (data : List Byte),
    s.pstate = .dispatching r →
    let countBad : Prop := qty.toNat < 1 ∨ 123 < qty.toNat ∨ bcount.toNat ≠ 2 * qty.toNat
    let rangeBad : Prop := 0xFFFF < start.toNat + qty.toNat - 1 ∨
      ∃ j : Nat, j < qty.toNat ∧ writable s.cfg (start.toNat + j) = false
    let valueBad : Prop := ∃ j : Nat, j < qty.toNat ∧
      legal s.cfg (start.toNat + j) (be16 (byteAt data (2 * j)) (byteAt data (2 * j + 1))) = false
    (countBad → exec (.writeMultiple addr start qty bcount data) s
      = .next { s with pstate := .responding (crcAppend [addr, 0x90#8, 0x03#8]) }) ∧
    (¬ countBad → rangeBad → exec (.writeMultiple addr start qty bcount data) s
      = .next { s with pstate := .responding (crcAppend [addr, 0x90#8, 0x02#8]) }) ∧
    (¬ countBad → ¬ rangeBad → valueBad → exec (.writeMultiple addr start qty bcount data) s
      = .next { s with pstate := .responding (crcAppend [addr, 0x90#8, 0x03#8]) }) ∧
    (¬ countBad → ¬ rangeBad → ¬ valueBad →
      ∃ (t : State) (rbuf : List Byte), exec (.writeMultiple addr start qty bcount data) s = .next t ∧
        t.pstate = .responding rbuf ∧ byteAt rbuf 1 = 0x10#8)

/-- R173: a frame with any other function byte is accepted at every length from MIN_FRAME on and selects
ILLEGAL_FUNCTION, which answers exception 0x01 with bit 7 of the byte set; nothing changes but `pstate`. -/
def Obligations.IllegalFunctionAnswersExceptionOne : Prop :=
  (∀ (s : State) (r : Request) (addr fc : Byte), s.pstate = .dispatching r →
    exec (.illegalFunction addr fc) s
      = .next { s with pstate := .responding (crcAppend [addr, fc ||| 0x80#8, 0x01#8]) }) ∧
  (∀ (p : Params) (f : List Byte), selectsNamed p (byteAt f 1) = false → 4 ≤ f.length → crcOk f = true →
    byteAt f 0 = p.slaveId →
    classify p false f = .accept (parseRequest f) ∧
      selectFunction p (parseRequest f) = .illegalFunction (byteAt f 0) (byteAt f 1))

/-- Derived from R174 and R85, and the model's choice of log 21: outside DISPATCHING no function code has a step. -/
def Obligations.FunctionCodesNeedDispatching : Prop :=
  ∀ (s : State) (addr fc bcount : Byte) (start qty : Word) (data : List Byte) (i : Instr),
    (i = .readHolding addr start qty ∨ i = .writeSingle addr start qty ∨
      i = .writeMultiple addr start qty bcount data ∨ i = .illegalFunction addr fc) →
    (s.pstate = .halted → exec i s = .refused .halted) ∧
    (s.pstate = .idle ∨ s.pstate = .receiving ∨ s.pstate = .validating ∨
      (∃ f : List Byte, s.pstate = .responding f) → exec i s = .refused .notDispatching)

/-- Derived from R64, R165, R170 and property E3: whatever instruction runs, MON_EVAL apart, a word of the register
map either keeps its value or is a writable word that now holds a legal value. -/
def Obligations.OnlyLegalValuesAreEverWritten : Prop :=
  ∀ (i : Instr) (s t : State) (a : Nat), s.reg.wf = true → i ≠ .monEval → exec i s = .next t →
    t.reg.wf = true ∧
    (t.reg.read a = s.reg.read a ∨ (writable s.cfg a = true ∧ legal s.cfg a (t.reg.read a) = true))

/-! ## Responding and SERVICE (42_dispatch.md) -/

/-- R180: with `tx_ready` the whole response goes to the transmit port, is counted, and the frame ends; without it no
step is enabled. -/
def Obligations.RespondingHandsTheFrameOver : Prop :=
  ∀ (s : State) (rbuf : List Byte), s.pstate = .responding rbuf →
    (s.txReady = true → engineStep s = some { s with
      tx := s.tx ++ [rbuf], responsesSent := s.responsesSent + 1#16, fbuf := [], pstate := .idle }) ∧
    (s.txReady = false → engineStep s = none)

/-- Derived from R186: SERVICE always ends, in IDLE or RECEIVING with an empty queue or in RESPONDING with `tx_ready`
false, and no engine step is enabled there. (That `tx_ready` keeps one level for the whole SERVICE is the model's choice,
log 28.) -/
def Obligations.ServiceRunsUntilNoStepIsEnabled : Prop :=
  ∀ s : State, s.pstate ≠ .halted →
    ∃ t : State, exec .service s = .next t ∧ serviceEnd t = true ∧ engineStep t = none ∧ takeArrival t = none

/-- Derived from R186 and R39: what SERVICE never changes, and the frames already sent stay sent. (That no input changes
inside a SERVICE is the spec's for `unit_state`, R8, and for `now`, R186; for `tx_ready` and `estop_in` it is the model's
choice, log 28.) -/
def Obligations.ServiceFrame : Prop :=
  ∀ s t : State, exec .service s = .next t →
    t.cfg = s.cfg ∧ t.crc = s.crc ∧ t.timeoutErrors = s.timeoutErrors ∧ t.lastTickMs = s.lastTickMs ∧
    t.commFault = s.commFault ∧ t.wdtFault = s.wdtFault ∧ t.now = s.now ∧ t.unitState = s.unitState ∧
    t.estopIn = s.estopIn ∧ t.txReady = s.txReady ∧ t.initOk = s.initOk ∧ t.script = s.script ∧
    (t.lastCommMs = s.lastCommMs ∨ t.lastCommMs = s.now) ∧ ∃ sent : List (List Byte), t.tx = s.tx ++ sent

/-- Derived from R132 to R148, R174, R180 and R186: from IDLE, with `tx_ready` and no entry arriving meanwhile, one
SERVICE on the entries of one unmarked frame of 1 to 256 bytes drops it, ignores it, or runs the instruction its bytes
decode to and sends that instruction's response. (`tx_ready` and `estop_in` keep one level for the whole SERVICE, log
28.) -/
def Obligations.ServiceServesOneFrame : Prop :=
  ∀ (s : State) (f : List Byte), s.pstate = .idle → s.arrivals = [] → s.txReady = true → s.nextBad = false →
    s.rxq = frameEntries f → f ≠ [] → f.length ≤ 256 →
    let ended : State := { s with rxq := [], fbuf := [], curBad := false }
    match classify s.cfg false f with
    | .malformed _ => exec .service s = .next { ended with crcErrors := s.crcErrors + 1#16 }
    | .ignore => exec .service s = .next ended
    | .accept r =>
        ∃ (i : Instr) (u : State) (rbuf : List Byte),
          decode s.cfg (.frame f) = .ok i ∧
          exec i { ended with
            fbuf := f
            requestsReceived := s.requestsReceived + 1#16
            lastCommMs := if s.cfg.livenessOnException then s.now else s.lastCommMs
            pstate := .dispatching r } = .next u ∧
          u.pstate = .responding rbuf ∧
          exec .service s = .next { u with
            tx := s.tx ++ [rbuf], responsesSent := s.responsesSent + 1#16, fbuf := [], pstate := .idle }

/-- Derived from R71, R72 and R186: with `tx_ready` true throughout and no entry arriving meanwhile, serving a queue is
serving its first part and then the rest, wherever it is cut. (That an input keeps one level for a whole SERVICE is the
model's choice, log 28.) -/
def Obligations.ServiceMayBeCutAnywhere : Prop :=
  ∀ (s : State) (q q' : List RxEntry), s.pstate ≠ .halted → s.arrivals = [] → s.txReady = true → s.rxq = q ++ q' →
    ∃ t u : State, exec .service { s with rxq := q } = .next t ∧ t.rxq = [] ∧
      exec .service { t with rxq := q' } = .next u ∧ exec .service s = .next u

/-- Derived from R181, R180 and R146: over any SERVICE, the frames handed to the transmit port are counted one by one in
`responses_sent`, and they and the responses still awaited balance the requests accepted, modulo 2^16; with `tx_ready`
true throughout (one level for the whole SERVICE, the model's choice of log 28) none is awaited at the end. -/
def Obligations.EveryAcceptedFrameIsAnsweredOnce : Prop :=
  ∀ s : State, s.pstate ≠ .halted →
    ∃ (t : State) (sent : List (List Byte)), exec .service s = .next t ∧
      t.tx = s.tx ++ sent ∧
      t.responsesSent = s.responsesSent + BitVec.ofNat 16 sent.length ∧
      t.responsesSent + awaited t - t.requestsReceived = s.responsesSent + awaited s - s.requestsReceived ∧
      (s.txReady = true → awaited t = 0#16)

/-- R182: two states that differ only in the safety state are served alike: same responses, same register map, same
counters. -/
def Obligations.ProtocolIgnoresTheSafetyState : Prop :=
  ∀ s s' : State, forgetSafety s = forgetSafety s' → s.pstate ≠ .halted →
    ∃ t t' : State, exec .service s = .next t ∧ exec .service s' = .next t' ∧ forgetSafety t = forgetSafety t'

/-- R113: no instruction but CRC_INIT, CRC_UPDATE and RESET depends on the register `crc` or changes it, and those two
change nothing else. -/
def Obligations.CrcRegisterAndEngineAreIndependent : Prop :=
  (∀ (i : Instr) (s : State) (c : Word), i ≠ .crcInit → (∀ b : Byte, i ≠ .crcUpdate b) → i ≠ .reset →
    exec i { s with crc := c } =
      match exec i s with
      | .next t => .next { t with crc := c }
      | .fault f => .fault f
      | .refused r => .refused r) ∧
  (∀ (s t : State) (b : Byte), (exec .crcInit s = .next t ∨ exec (.crcUpdate b) s = .next t) →
    t = { s with crc := t.crc })

/-! ## The safety monitor (43_monitor.md) -/

/-- R201: TICK stores `now` and changes nothing else; it is refused in HALTED. -/
def Obligations.TickStoresTheTime : Prop :=
  ∀ s : State,
    (s.pstate ≠ .halted → exec .tick s = .next { s with lastTickMs := s.now }) ∧
    (s.pstate = .halted → exec .tick s = .refused .halted)

/-- R203: MON_EVAL recomputes both conditions from the ages modulo 2^32, counts a rising edge of `comm_fault`, latches
`estop_in`, and changes nothing else but the register map. -/
def Obligations.MonEvalEvaluates : Prop :=
  ∀ s : State, s.pstate ≠ .halted →
    ∃ (m : Memory) (c w : Bool),
      (c = true ↔ 2000 < (s.now.toNat + 2 ^ 32 - s.lastCommMs.toNat) % 2 ^ 32) ∧
      (w = true ↔ 1000 < (s.now.toNat + 2 ^ 32 - s.lastTickMs.toNat) % 2 ^ 32) ∧
      exec .monEval s = .next { s with
        reg := m
        commFault := c
        wdtFault := w
        timeoutErrors := if c = true ∧ s.commFault = false then s.timeoutErrors + 1#16 else s.timeoutErrors
        estop := s.estop || s.estopIn }

/-- R211: MON_EVAL publishes the four System Status words of `FIELD_MAP` from the flags it has just evaluated, and
leaves every other word alone. -/
def Obligations.MonEvalPublishesTheStatusWords : Prop :=
  ∀ s : State, s.pstate ≠ .halted → paramsOk s.cfg = true → s.reg.wf = true →
    ∃ (t : State) (a0 a1 a2 a3 : Nat),
      exec .monEval s = .next t ∧ t.reg.wf = true ∧
      addressOf s.cfg .sysStatus = some a0 ∧ addressOf s.cfg .commErrCount = some a1 ∧
      addressOf s.cfg .activeCount = some a2 ∧ addressOf s.cfg .activeMask = some a3 ∧
      t.reg.read a0 = statusWord t ∧ t.reg.read a1 = s.crcErrors ∧
      (t.reg.read a2).toNat = (if s.unitState[0] = .running then 1 else 0) +
        (if s.unitState[1] = .running then 1 else 0) + (if s.unitState[2] = .running then 1 else 0) +
        (if s.unitState[3] = .running then 1 else 0) ∧
      (t.reg.read a3).toNat = (if s.unitState[0] = .running then 1 else 0) +
        (if s.unitState[1] = .running then 2 else 0) + (if s.unitState[2] = .running then 4 else 0) +
        (if s.unitState[3] = .running then 8 else 0) ∧
      ∀ a : Nat, a ≠ a0 → a ≠ a1 → a ≠ a2 → a ≠ a3 → t.reg.read a = s.reg.read a

/-- R210: the System Status word with the default `STATUS_BITS`, bit by bit; it is never 0. -/
def Obligations.StatusWordBitByBit : Prop :=
  ∀ s : State, s.cfg.statusBits = Config.defaultStatusBits →
    (statusWord s).getLsbD 1 = (s.estop || s.estopIn) ∧
    (statusWord s).getLsbD 2 = s.commFault ∧
    ((statusWord s).getLsbD 3 = true ↔
      (s.unitState[0] = .fault ∨ s.unitState[1] = .fault ∨ s.unitState[2] = .fault ∨
        s.unitState[3] = .fault ∨ s.wdtFault = true)) ∧
    (statusWord s).getLsbD 4 = s.wdtFault ∧
    (statusWord s).getLsbD 0 = !((statusWord s).getLsbD 1 || (statusWord s).getLsbD 2 ||
      (statusWord s).getLsbD 3 || (statusWord s).getLsbD 4) ∧
    (∀ j : Nat, 5 ≤ j → (statusWord s).getLsbD j = false) ∧
    statusWord s ≠ 0#16

/-- Derived from R212: right after a MON_EVAL the published status is 0x0001 or 0x0008 exactly when `force_fault` is
0. -/
def Obligations.PublishedStatusTellsForceFault : Prop :=
  ∀ (s t : State) (a : Nat), paramsOk s.cfg = true → s.reg.wf = true →
    s.cfg.statusBits = Config.defaultStatusBits → addressOf s.cfg .sysStatus = some a → exec .monEval s = .next t →
    ((t.reg.read a = 0x0001#16 ∨ t.reg.read a = 0x0008#16) ↔ forceFault t = false)

/-- Derived from R205: an age is exact across the wrap of the clock while it stays below 2^32 ms, and a timeout is the
strict test. -/
def Obligations.AgesAreExactAcrossTheWrap : Prop :=
  ∀ (t : Millis) (d limit : Nat), d < 2 ^ 32 →
    (age (t + BitVec.ofNat 32 d) t).toNat = d ∧
    (timedOut (t + BitVec.ofNat 32 d) t limit = true ↔ limit < d)

/-- R206: ESTOP_SET sets the latch, `force_fault` is 1 at once, and nothing else changes; it is refused in HALTED.
`estop_in` asserts `force_fault` with no event, and MON_EVAL latches it. -/
def Obligations.EstopSetLatches : Prop :=
  ∀ s : State,
    (s.pstate ≠ .halted → exec .estopSet s = .next { s with estop := true } ∧
      forceFault { s with estop := true } = true) ∧
    (s.pstate = .halted → exec .estopSet s = .refused .halted) ∧
    (s.estopIn = true → forceFault s = true) ∧
    (s.estopIn = true → s.pstate ≠ .halted → ∃ t : State, exec .monEval s = .next t ∧ t.estop = true)

/-- R207: ESTOP_CLEAR clears the latch only while `estop_in` is false, and changes nothing else; it is refused in
HALTED. -/
def Obligations.EstopClearNeedsTheSignalAbsent : Prop :=
  ∀ s : State,
    (s.pstate ≠ .halted → s.estopIn = false → exec .estopClear s = .next { s with estop := false }) ∧
    (s.pstate ≠ .halted → s.estopIn = true → exec .estopClear s = .next s) ∧
    (s.pstate = .halted → exec .estopClear s = .refused .halted)

/-- Derived from R207 and R208: an instruction that clears a set latch is RESET, or, with `estop_in` false,
ESTOP_CLEAR, SERVICE, a WRITE_SINGLE of a value other than 1 to GLOBAL_ESTOP, or a WRITE_MULTIPLE whose range gives
GLOBAL_ESTOP such a value. (That `estop_in` keeps one level for a whole SERVICE, so that a SERVICE that clears the latch
has it false from start to end, is the model's choice, log 28.) -/
def Obligations.NothingElseClearsTheEstopLatch : Prop :=
  ∀ (i : Instr) (s t : State), exec i s = .next t → s.estop = true → t.estop = false →
    i = .reset ∨
    (s.estopIn = false ∧
      (i = .estopClear ∨ i = .service ∨
        (∃ (addr : Byte) (a v : Word), i = .writeSingle addr a v ∧ v ≠ 1#16 ∧
          nameAt s.cfg a.toNat = some .globalEstop) ∨
        (∃ (addr : Byte) (start qty : Word) (bcount : Byte) (data : List Byte) (j : Nat),
          i = .writeMultiple addr start qty bcount data ∧ j < qty.toNat ∧
          nameAt s.cfg (start.toNat + j) = some .globalEstop ∧
          be16 (byteAt data (2 * j)) (byteAt data (2 * j + 1)) ≠ 1#16)))

/-- R209: `force_fault` is 1 exactly when `pstate` is HALTED or one of `comm_fault`, `wdt_fault`, `estop` and
`estop_in` is 1. -/
def Obligations.ForceFaultIsTheDisjunction : Prop :=
  ∀ s : State, forceFault s = true ↔
    (s.pstate = .halted ∨ s.commFault = true ∨ s.wdtFault = true ∨ s.estop = true ∨ s.estopIn = true)

/-- R213: STATS_CLEAR sets the four counters to 0 and changes nothing else; it is refused in HALTED. -/
def Obligations.StatsClearZeroesTheCounters : Prop :=
  ∀ s : State,
    (s.pstate ≠ .halted → exec .statsClear s = .next { s with
      requestsReceived := 0#16, responsesSent := 0#16, crcErrors := 0#16, timeoutErrors := 0#16 }) ∧
    (s.pstate = .halted → exec .statsClear s = .refused .halted)

/-! ## Reset, refusals and the machine (30_encoding.md, 60_exceptions.md, 70_reset_and_hazards.md) -/

/-- R270, R41: RESET is never refused, sets every element to its reset value, and touches neither the register map nor
the parameters, the inputs or the frames already sent; `force_fault` is then `estop_in`, or 1 in HALTED. -/
def Obligations.ResetSetsEveryElement : Prop :=
  ∀ s : State, ∃ t : State, exec .reset s = .next t ∧
    t = { s with
      pstate := if s.initOk then .idle else .halted
      fbuf := [], curBad := false, nextBad := false, rxq := [], crc := 0xFFFF#16
      requestsReceived := 0#16, responsesSent := 0#16, crcErrors := 0#16, timeoutErrors := 0#16
      lastCommMs := s.now, lastTickMs := s.now
      commFault := false, wdtFault := false, estop := false } ∧
    forceFault t = (!s.initOk || s.estopIn)

/-- Derived from R41 and R270: the state after reset holds the table's values; with `init_ok` true it is its own
RESET. (The inputs and the parameters it holds are the model's choice, logs 1 and 7, and are not stated here.) -/
def Obligations.ResetStateIsTheResetTable : Prop :=
  State.reset.pstate = .idle ∧ State.reset.flen = 0 ∧ State.reset.curBad = false ∧ State.reset.nextBad = false ∧
  State.reset.rxq = [] ∧ State.reset.crc = 0xFFFF#16 ∧ State.reset.requestsReceived = 0#16 ∧
  State.reset.responsesSent = 0#16 ∧ State.reset.crcErrors = 0#16 ∧ State.reset.timeoutErrors = 0#16 ∧
  State.reset.lastCommMs = State.reset.now ∧ State.reset.lastTickMs = State.reset.now ∧
  State.reset.commFault = false ∧ State.reset.wdtFault = false ∧ State.reset.estop = false ∧
  exec .reset State.reset = .next State.reset

/-- R85: a reserved event code is refused in every state; in HALTED every event of the block but RESET is refused, and
the front-end's events still append. -/
def Obligations.ReservedCodesAndHaltedRefuse : Prop :=
  (∀ (code : BitVec 4) (s : State), exec (.reservedEvent code) s = .refused .reservedEvent) ∧
  (∀ (i : Instr) (s : State), s.pstate = .halted →
    i = .service ∨ i = .tick ∨ i = .monEval ∨ i = .estopSet ∨ i = .estopClear ∨ i = .statsClear ∨ i = .crcInit ∨
      (∃ b : Byte, i = .crcUpdate b) → exec i s = .refused .halted) ∧
  (∀ s : State, s.pstate = .halted → s.rxq.length < s.cfg.rxqDepth →
    (∀ b : Byte, exec (.rxByte b) s = .next { s with rxq := s.rxq ++ [⟨.byte b, false⟩] }) ∧
    exec .rxGap s = .next { s with rxq := s.rxq ++ [⟨.gap, false⟩] } ∧
    exec .rxErr s = .next { s with rxq := s.rxq ++ [⟨.err, false⟩] })

/-- Derived from R272: in HALTED an instruction that has a step is RESET or changes only the queue. -/
def Obligations.HaltedIsLeftOnlyByReset : Prop :=
  ∀ (i : Instr) (s t : State), s.pstate = .halted → exec i s = .next t → i = .reset ∨ t = { s with rxq := t.rxq }

/-- Derived from R84 and R174, and the model's fetch (logs 8 and 10): outside a frame's validation and dispatch a step
runs the instruction the next event decodes to, with that event taken from the script; in DISPATCHING it runs the
instruction the accepted frame in the frame buffer decodes to. -/
def Obligations.StepRunsTheDecodedInstruction : Prop :=
  ∀ s : State, paramsOk s.cfg = true →
    (∀ (code : BitVec 4) (b : Byte) (rest : List Stimulus), s.script = .event code b :: rest →
      s.pstate ≠ .validating → (∀ r : Request, s.pstate ≠ .dispatching r) →
      ∃ i : Instr, decode s.cfg (.port code b) = .ok i ∧ step s = exec i { s with script := rest }) ∧
    (∀ r : Request, s.pstate = .dispatching r → s.fbuf.length ≤ 256 → classify s.cfg false s.fbuf = .accept r →
      ∃ i : Instr, decode s.cfg (.frame s.fbuf) = .ok i ∧ step s = exec i s)

/-- Derived from R7, R8, R26, R30, R37, R50, R95, R130, R131, R186 and R202, and the model's script and arrivals
(logs 7, 8 and 9), its strobe (log 18) and its inputs of one level for a whole SERVICE (log 28): with an empty script
a step waits; a change of an input, an out-of-block write of a word, the monitor strobe and a scheduled arrival each
have their effect alone and are taken from the script. An entry that is due in a SERVICE is appended at the tail, or
with the queue full marks the newest entry, and the SERVICE goes on from there; an entry that is not due waits one
engine step fewer after each engine step, and stays when none is enabled. -/
def Obligations.StepAppliesTheInputs : Prop :=
  (∀ (s : State) (rest : List Stimulus), paramsOk s.cfg = true → s.pstate ≠ .validating →
    (∀ r : Request, s.pstate ≠ .dispatching r) →
    (s.script = [] → step s = .next s) ∧
    (∀ x : Millis, s.script = .clock x :: rest → step s = .next { s with script := rest, now := x }) ∧
    (∀ x : Bool, s.script = .setEstopIn x :: rest → step s = .next { s with script := rest, estopIn := x }) ∧
    (∀ x : Bool, s.script = .setTxReady x :: rest → step s = .next { s with script := rest, txReady := x }) ∧
    (∀ x : Bool, s.script = .setInitOk x :: rest → step s = .next { s with script := rest, initOk := x }) ∧
    (∀ a v : Word, s.script = .outsideWrite a v :: rest →
      step s = .next { s with script := rest, reg := s.reg.write a.toNat v }) ∧
    (∀ (n : Fin Config.numUnits) (u : UnitState), s.script = .setUnit n u :: rest →
      ∃ us : Units, step s = .next { s with script := rest, unitState := us } ∧
        us.toList = s.unitState.toList.set n.val u) ∧
    (s.script = .strobe :: rest → s.cfg.wdtIndependent = true → step s = exec .monEval { s with script := rest }) ∧
    (s.script = .strobe :: rest → s.cfg.wdtIndependent = false → step s = .next { s with script := rest }) ∧
    (∀ (n : Nat) (k : RxKind), s.script = .scheduleArrival n k :: rest →
      step s = .next { s with script := rest, arrivals := s.arrivals ++ [⟨n, k⟩] })) ∧
  (∀ (s : State) (n : Nat) (k : RxKind) (later : List Arrival), s.pstate ≠ .halted → s.arrivals = ⟨n, k⟩ :: later →
    (n = 0 → s.rxq.length < s.cfg.rxqDepth →
      exec .service s = exec .service { s with arrivals := later, rxq := s.rxq ++ [⟨k, false⟩] }) ∧
    (∀ (q : List RxEntry) (e : RxEntry), n = 0 → s.rxq = q ++ [e] → s.cfg.rxqDepth ≤ s.rxq.length →
      exec .service s = exec .service { s with arrivals := later, rxq := q ++ [{ e with lost := true }] }) ∧
    (∀ t : State, 0 < n → engineStep s = some t →
      exec .service s = exec .service { t with arrivals := ⟨n - 1, k⟩ :: later }) ∧
    (0 < n → engineStep s = none → exec .service s = .next s))

/-- Derived from R256, R85 and R272, and the model's choice of log 12: a step faults exactly when a parameter breaks
its constraints, and is refused only on a reserved code or in HALTED. -/
def Obligations.StepsStopOnlyWhereTheSpecSays : Prop :=
  ∀ s : State,
    (paramsOk s.cfg = false → step s = .fault .parameterConstraint) ∧
    (paramsOk s.cfg = true →
      (∃ t : State, step s = .next t) ∨
      (step s = .refused .halted ∧ s.pstate = .halted) ∨
      (step s = .refused .reservedEvent ∧ ∃ (code : BitVec 4) (b : Byte) (rest : List Stimulus),
        s.script = .event code b :: rest ∧ 12 ≤ code.toNat))

/-- Derived from R77 and R273: no step changes a parameter. -/
def Obligations.ParametersAreFixedForARun : Prop :=
  ∀ s t : State, step s = .next t → t.cfg = s.cfg

/-- Derived from R22, R23, R25, R29, R50, R146, R179 and R180: every step keeps the invariant: the register map in
canonical form (the model's choice, logs 3 and 27), the frame buffer and the queue within their bounds, and the frame
in progress as its protocol state says. -/
def Obligations.EveryStepKeepsTheInvariant : Prop :=
  ∀ s t : State, s.inv = true → step s = .next t → t.inv = true

/-- Derived from R41: the state after reset meets the invariant that every step keeps. -/
def Obligations.ResetMeetsTheInvariant : Prop := State.reset.inv = true
end

