-- ==== Sys2Proof/Laws/Address.lean ====
section
/-! SUPPORT. The constants fit their layouts (00_scope.md R6), the default parameters meet their constraints, and what the
rights of an address imply. -/

namespace Sys2Proof

/-- The constraints R6 puts on the named constants. -/
theorem Config.constants_fit :
    5 + 2 * Config.qtyMaxRd ≤ Config.frameMax ∧ 9 + 2 * Config.qtyMaxWr ≤ Config.frameMax ∧ 4 ≤ Config.minFrame := by
  decide

namespace Machine

theorem defaultParams_ok : paramsOk Config.defaultParams = true := by decide

/-- A mapped address lies below 0x0420 (R51). -/
theorem mapped_lt {a : Nat} (h : mapped a = true) : a < 0x420 := by
  by_contra hn
  have : addrClass a = .unmapped := by
    unfold addrClass
    have h1 : ¬ a ≤ 0x000F := by omega
    have h2 : ¬ (0x0010 ≤ a ∧ a ≤ 0x001F) := by omega
    have h3 : ¬ (1 ≤ a / 0x100 ∧ a / 0x100 ≤ Config.numUnits ∧ a % 0x100 ≤ 0x0F) := by
      simp only [Config.numUnits]; omega
    have h4 : ¬ (1 ≤ a / 0x100 ∧ a / 0x100 ≤ Config.numUnits ∧ 0x10 ≤ a % 0x100 ∧ a % 0x100 ≤ 0x1F) := by
      simp only [Config.numUnits]; omega
    rw [if_neg h1, if_neg h2, if_neg h3, if_neg h4]
  simp [mapped, this] at h

/-- A word the protocol may write is mapped (R63). -/
theorem writable_mapped {p : Params} {a : Nat} (h : writable p a = true) : mapped a = true := by
  simp only [writable, Bool.and_eq_true] at h
  exact h.1.1

@[simp] theorem addressRange_length (start qty : Nat) : (addressRange start qty).length = qty := by
  simp [addressRange]

theorem mem_addressRange {start qty a : Nat} : a ∈ addressRange start qty ↔ ∃ j, j < qty ∧ a = start + j := by
  simp only [addressRange, List.mem_map, List.mem_range]
  exact ⟨fun ⟨j, h, e⟩ => ⟨j, h, e.symm⟩, fun ⟨j, h, e⟩ => ⟨j, h, e.symm⟩⟩

theorem mem_writePairs {start qty : Nat} {data : List Byte} {w : Nat × Word} :
    w ∈ writePairs start qty data ↔ ∃ j, j < qty ∧ w = (start + j, valueAt data j) := by
  simp only [writePairs, List.mem_map, List.mem_range]
  exact ⟨fun ⟨j, h, e⟩ => ⟨j, h, e.symm⟩, fun ⟨j, h, e⟩ => ⟨j, h, e.symm⟩⟩

/-- The addresses of a multiple write are distinct. -/
theorem writePairs_nodup (start qty : Nat) (data : List Byte) : ((writePairs start qty data).map Prod.fst).Nodup := by
  have : (writePairs start qty data).map Prod.fst = (List.range qty).map (start + ·) := by
    simp [writePairs, Function.comp_def]
  rw [this]
  exact List.Nodup.map (fun a b h => Nat.add_left_cancel h) List.nodup_range

/-- The address `FIELD_MAP` gives a name lies in the register map. -/
theorem addressOf_le {p : Params} (hp : paramsOk p = true) {n : FieldName} {a : Nat} (h : addressOf p n = some a) :
    a ≤ Config.lastAddress := by
  simp only [addressOf, Option.map_eq_some_iff] at h
  obtain ⟨e, he, rfl⟩ := h
  simp only [paramsOk, fieldMapOk, Bool.and_eq_true, List.all_eq_true] at hp
  have := hp.2.1.1.1.1.1 e (List.mem_of_find?_eq_some he)
  simpa using this

end Machine
end Sys2Proof
end

