-- ==== Sys2Proof/Laws/Crc.lean ====
section
/-! SUPPORT. The CRC step is linear over XOR and its shifts lose nothing: the small laws about `crcShift`, `crcShifts` and
`crcFold`, and the two halves of a word. -/

namespace Sys2Proof.Machine

/-- The two halves put together again (R10). -/
@[simp] theorem be16_hi_lo (w : Word) : be16 (hi w) (lo w) = w := by
  apply BitVec.eq_of_getLsbD_eq
  intro i hi'
  simp only [be16, hi, lo, BitVec.getLsbD_or, BitVec.getLsbD_shiftLeft, BitVec.getLsbD_setWidth,
    BitVec.getLsbD_extractLsb']
  by_cases h : i < 8
  · simp [h, hi']
  · have h1 : i - 8 < 16 := by omega
    have h2 : i - 8 < 8 := by omega
    have h3 : 8 + (i - 8) = i := by omega
    simp [h, hi', h1, h2, h3]

@[simp] theorem hi_be16 (h l : Byte) : hi (be16 h l) = h := by
  apply BitVec.eq_of_getLsbD_eq
  intro i hi'
  simp only [be16, hi, BitVec.getLsbD_or, BitVec.getLsbD_shiftLeft, BitVec.getLsbD_setWidth,
    BitVec.getLsbD_extractLsb']
  have h1 : 8 + i < 16 := by omega
  have h2 : i < 16 := by omega
  simp [hi', h1, h2]

@[simp] theorem lo_be16 (h l : Byte) : lo (be16 h l) = l := by
  apply BitVec.eq_of_getLsbD_eq
  intro i hi'
  simp only [be16, lo, BitVec.getLsbD_or, BitVec.getLsbD_shiftLeft, BitVec.getLsbD_setWidth,
    BitVec.getLsbD_extractLsb']
  have h1 : i < 16 := by omega
  simp [hi', h1]

/-- A turn of the loop is linear over XOR (R112). -/
theorem crcShift_xor (a b : Word) : crcShift (a ^^^ b) = crcShift a ^^^ crcShift b := by
  have hs : (a ^^^ b) >>> 1 = (a >>> 1) ^^^ (b >>> 1) := by
    apply BitVec.eq_of_getLsbD_eq
    intro i _
    simp
  unfold crcShift
  rw [hs, BitVec.getLsbD_xor]
  cases ha : a.getLsbD 0 <;> cases hb : b.getLsbD 0
  · simp
  · simp [BitVec.xor_assoc]
  · simp only [Bool.xor_false, if_true, Bool.false_eq_true, if_false]
    rw [BitVec.xor_assoc, BitVec.xor_assoc, BitVec.xor_comm (b >>> 1)]
  · simp only [Bool.xor_self, if_true, Bool.false_eq_true, if_false]
    have : ∀ x y z : Word, x ^^^ z ^^^ (y ^^^ z) = x ^^^ y := by
      intro x y z
      rw [BitVec.xor_comm y z, ← BitVec.xor_assoc, BitVec.xor_assoc x z z, BitVec.xor_self, BitVec.xor_zero]
    rw [this]

theorem crcShifts_xor (n : Nat) (a b : Word) : crcShifts n (a ^^^ b) = crcShifts n a ^^^ crcShifts n b := by
  induction n generalizing a b with
  | zero => rfl
  | succ n ih => simp only [crcShifts, crcShift_xor, ih]

/-- A turn of the loop gives 0 from 0 alone: the polynomial has bit 15, which a shifted word lacks. -/
theorem crcShift_eq_zero {a : Word} (h : crcShift a = 0#16) : a = 0#16 := by
  unfold crcShift at h
  split at h
  · have := congrArg (fun x : Word => x.getLsbD 15) h
    simp [Config.crcPoly] at this
  · rename_i h0
    apply BitVec.eq_of_getLsbD_eq
    intro i hi'
    cases i with
    | zero => simpa using h0
    | succ j =>
      have := congrArg (fun x : Word => x.getLsbD j) h
      simpa [Nat.add_comm] using this

theorem crcShifts_eq_zero {n : Nat} {a : Word} (h : crcShifts n a = 0#16) : a = 0#16 := by
  induction n generalizing a with
  | zero => exact h
  | succ n ih => exact crcShift_eq_zero (ih h)

theorem crcFold_append (c : Word) (s t : List Byte) : crcFold c (s ++ t) = crcFold (crcFold c s) t := by
  simp [crcFold]

@[simp] theorem crcFold_nil (c : Word) : crcFold c [] = c := rfl
@[simp] theorem crcFold_cons (c : Word) (b : Byte) (s : List Byte) :
    crcFold c (b :: s) = crcFold (crcStep8 c b) s := rfl

@[simp] theorem crcAppend_length (s : List Byte) : (crcAppend s).length = s.length + 2 := by
  simp [crcAppend]

/-- A string with its CRC appended passes the check (R115, R116). -/
theorem crcOk_crcAppend (s : List Byte) : crcOk (crcAppend s) = true := by
  have h1 : byteAt (crcAppend s) (s.length + 1) = hi (crc16 s) := by simp [byteAt, crcAppend]
  have h2 : byteAt (crcAppend s) s.length = lo (crc16 s) := by simp [byteAt, crcAppend]
  simp only [crcOk, crcAppend_length, Nat.add_sub_cancel]
  rw [show s.length + 2 - 1 = s.length + 1 from rfl, h1, h2, be16_hi_lo]
  simp [crcAppend]

end Sys2Proof.Machine
end

