-- ==== Sys2Proof/Laws/Memory.lean ====
section
/-! SUPPORT. The register map's laws: reading after writing, and every memory operation keeps the canonical form. -/

namespace Sys2Proof.Machine

theorem Memory.wfFrom_cons {n a : Nat} {v : Word} {rest : Memory} :
    Memory.wfFrom n ((a, v) :: rest) = true ↔
      n ≤ a ∧ a ≤ Config.lastAddress ∧ v ≠ Config.unwrittenWord ∧ Memory.wfFrom (a + 1) rest = true := by
  simp [Memory.wfFrom, and_assoc]

theorem Memory.wfFrom_mono {n n' : Nat} {m : Memory} (h : n' ≤ n) (hm : Memory.wfFrom n m = true) :
    Memory.wfFrom n' m = true := by
  cases m with
  | nil => rfl
  | cons c rest =>
    obtain ⟨a, v⟩ := c
    rw [Memory.wfFrom_cons] at hm ⊢
    exact ⟨le_trans h hm.1, hm.2⟩

/-- An address below every listed one is unlisted. -/
theorem Memory.read_below {n a : Nat} {m : Memory} (hm : Memory.wfFrom n m = true) (h : a < n) :
    Memory.read m a = Config.unwrittenWord := by
  induction m generalizing n with
  | nil => rfl
  | cons c rest ih =>
    obtain ⟨b, v⟩ := c
    rw [Memory.wfFrom_cons] at hm
    have hb : a ≠ b := by omega
    simp only [Memory.read, hb, if_false]
    exact ih hm.2.2.2 (by omega)

theorem Memory.read_write_from {n a b : Nat} {v : Word} {m : Memory} (hm : Memory.wfFrom n m = true) :
    Memory.read (Memory.write m a v) b = if b = a then v else Memory.read m b := by
  induction m generalizing n with
  | nil =>
    by_cases hv : v = Config.unwrittenWord
    · by_cases hb : b = a <;> simp [Memory.write, Memory.read, hv, hb]
    · by_cases hb : b = a <;> simp [Memory.write, Memory.read, hv, hb]
  | cons c rest ih =>
    obtain ⟨d, w⟩ := c
    rw [Memory.wfFrom_cons] at hm
    obtain ⟨-, -, -, hrest⟩ := hm
    have hd : Memory.read rest d = Config.unwrittenWord := Memory.read_below hrest (by omega)
    rcases lt_trichotomy a d with h | h | h
    · have had : a ≠ d := by omega
      have hra : Memory.read rest a = Config.unwrittenWord := Memory.read_below hrest (by omega)
      by_cases hv : v = Config.unwrittenWord <;> by_cases hb : b = a <;>
        simp [Memory.write, Memory.read, h, hv, hb, had, hra]
    · subst h
      by_cases hv : v = Config.unwrittenWord <;> by_cases hb : b = a <;>
        simp [Memory.write, Memory.read, hv, hb, hd]
    · have h1 : ¬ a < d := by omega
      have h2 : a ≠ d := by omega
      have h3 : d ≠ a := by omega
      by_cases hb : b = d
      · subst hb
        simp [Memory.write, Memory.read, h1, h2, h3]
      · simp [Memory.write, Memory.read, h1, h2, hb, ih hrest]

/-- `REG` read after a write (R50): the word written at that address, every other word as before. -/
theorem Memory.read_write {m : Memory} (hm : m.wf = true) (a b : Nat) (v : Word) :
    (m.write a v).read b = if b = a then v else m.read b :=
  Memory.read_write_from hm

theorem Memory.wfFrom_write {n a : Nat} {v : Word} {m : Memory} (hm : Memory.wfFrom n m = true) (hn : n ≤ a)
    (ha : a ≤ Config.lastAddress) : Memory.wfFrom n (Memory.write m a v) = true := by
  induction m generalizing n with
  | nil =>
    by_cases hv : v = Config.unwrittenWord
    · simp [Memory.write, Memory.wfFrom, hv]
    · simp only [Memory.write, hv, if_false, Memory.wfFrom_cons]
      exact ⟨hn, ha, hv, rfl⟩
  | cons c rest ih =>
    obtain ⟨d, w⟩ := c
    have hm' := hm
    rw [Memory.wfFrom_cons] at hm'
    obtain ⟨hd1, hd2, hw, hrest⟩ := hm'
    rcases lt_trichotomy a d with h | h | h
    · by_cases hv : v = Config.unwrittenWord
      · simpa [Memory.write, h, hv] using hm
      · simp only [Memory.write, h, hv, if_true, if_false, Memory.wfFrom_cons]
        exact ⟨hn, ha, hv, by omega, hd2, hw, hrest⟩
    · subst h
      by_cases hv : v = Config.unwrittenWord
      · simpa [Memory.write, hv] using Memory.wfFrom_mono (by omega) hrest
      · simp only [Memory.write, hv, lt_irrefl, if_true, if_false, Memory.wfFrom_cons]
        exact ⟨hn, ha, hv, hrest⟩
    · have h1 : ¬ a < d := by omega
      have h2 : a ≠ d := by omega
      simp only [Memory.write, h1, h2, if_false, Memory.wfFrom_cons]
      exact ⟨hd1, hd2, hw, ih hrest (by omega)⟩

/-- A write keeps the canonical form. -/
theorem Memory.wf_write {m : Memory} (hm : m.wf = true) {a : Nat} (ha : a ≤ Config.lastAddress) (v : Word) :
    (m.write a v).wf = true :=
  Memory.wfFrom_write hm (Nat.zero_le a) ha

/-- `MemWrite` keeps the canonical form. -/
theorem memWrite_wf {w : List (Nat × Word)} {m : Memory} (hm : m.wf = true)
    (hw : ∀ p ∈ w, p.1 ≤ Config.lastAddress) : (memWrite m w).wf = true := by
  induction w generalizing m with
  | nil => exact hm
  | cons p rest ih =>
    have hp := hw p (by simp)
    exact ih (Memory.wf_write hm hp p.2) (fun q hq => hw q (by simp [hq]))

/-- `MemWrite` leaves every word alone whose address it does not name. -/
theorem memWrite_read_other {w : List (Nat × Word)} {m : Memory} {b : Nat} (hm : m.wf = true)
    (hw : ∀ p ∈ w, p.1 ≤ Config.lastAddress) (hb : ∀ p ∈ w, p.1 ≠ b) : (memWrite m w).read b = m.read b := by
  induction w generalizing m with
  | nil => rfl
  | cons p rest ih =>
    have hp := hw p (by simp)
    have h1 : b ≠ p.1 := fun h => hb p (by simp) h.symm
    have := ih (Memory.wf_write hm hp p.2) (fun q hq => hw q (by simp [hq])) (fun q hq => hb q (by simp [hq]))
    simp only [memWrite, List.foldl_cons] at this ⊢
    rw [this, Memory.read_write hm, if_neg h1]

/-- `MemWrite` over distinct addresses stores each value. -/
theorem memWrite_read_mem {w : List (Nat × Word)} {m : Memory} (hm : m.wf = true)
    (hw : ∀ p ∈ w, p.1 ≤ Config.lastAddress) (hd : (w.map Prod.fst).Nodup) {p : Nat × Word} (hp : p ∈ w) :
    (memWrite m w).read p.1 = p.2 := by
  induction w generalizing m with
  | nil => simp at hp
  | cons q rest ih =>
    have hq := hw q (by simp)
    have hwf := Memory.wf_write hm hq q.2
    simp only [List.map_cons, List.nodup_cons, List.mem_map] at hd
    rcases List.mem_cons.mp hp with rfl | hp'
    · have hno : ∀ r ∈ rest, r.1 ≠ p.1 := fun r hr h => hd.1 ⟨r, hr, h⟩
      have := memWrite_read_other (b := p.1) hwf (fun r hr => hw r (by simp [hr])) hno
      simp only [memWrite, List.foldl_cons] at this ⊢
      rw [this, Memory.read_write hm, if_pos rfl]
    · exact ih hwf (fun r hr => hw r (by simp [hr])) hd.2 hp'

@[simp] theorem Memory.wf_nil : Memory.wf [] = true := rfl
@[simp] theorem Memory.read_nil (a : Nat) : Memory.read [] a = Config.unwrittenWord := rfl

end Sys2Proof.Machine
end

