-- ==== Sys2Proof/Laws/State.lean ====
section
/-! SUPPORT. One lemma per field for each named update of the state, true by rfl: what the update writes and what it
leaves alone. Later proofs cite these instead of unfolding an update. -/

namespace Sys2Proof.Machine

/-! ## rxPush -/

@[simp] theorem rxPush_cfg (k : RxKind) (s : State) : (rxPush k s).cfg = s.cfg := rfl
@[simp] theorem rxPush_pstate (k : RxKind) (s : State) : (rxPush k s).pstate = s.pstate := rfl
@[simp] theorem rxPush_fbuf (k : RxKind) (s : State) : (rxPush k s).fbuf = s.fbuf := rfl
@[simp] theorem rxPush_curBad (k : RxKind) (s : State) : (rxPush k s).curBad = s.curBad := rfl
@[simp] theorem rxPush_nextBad (k : RxKind) (s : State) : (rxPush k s).nextBad = s.nextBad := rfl
@[simp] theorem rxPush_crc (k : RxKind) (s : State) : (rxPush k s).crc = s.crc := rfl
@[simp] theorem rxPush_requestsReceived (k : RxKind) (s : State) :
    (rxPush k s).requestsReceived = s.requestsReceived := rfl
@[simp] theorem rxPush_responsesSent (k : RxKind) (s : State) : (rxPush k s).responsesSent = s.responsesSent := rfl
@[simp] theorem rxPush_crcErrors (k : RxKind) (s : State) : (rxPush k s).crcErrors = s.crcErrors := rfl
@[simp] theorem rxPush_timeoutErrors (k : RxKind) (s : State) : (rxPush k s).timeoutErrors = s.timeoutErrors := rfl
@[simp] theorem rxPush_rxq (k : RxKind) (s : State) : (rxPush k s).rxq = pushEntry s.cfg.rxqDepth k s.rxq := rfl
@[simp] theorem rxPush_lastCommMs (k : RxKind) (s : State) : (rxPush k s).lastCommMs = s.lastCommMs := rfl
@[simp] theorem rxPush_lastTickMs (k : RxKind) (s : State) : (rxPush k s).lastTickMs = s.lastTickMs := rfl
@[simp] theorem rxPush_commFault (k : RxKind) (s : State) : (rxPush k s).commFault = s.commFault := rfl
@[simp] theorem rxPush_wdtFault (k : RxKind) (s : State) : (rxPush k s).wdtFault = s.wdtFault := rfl
@[simp] theorem rxPush_estop (k : RxKind) (s : State) : (rxPush k s).estop = s.estop := rfl
@[simp] theorem rxPush_reg (k : RxKind) (s : State) : (rxPush k s).reg = s.reg := rfl
@[simp] theorem rxPush_now (k : RxKind) (s : State) : (rxPush k s).now = s.now := rfl
@[simp] theorem rxPush_unitState (k : RxKind) (s : State) : (rxPush k s).unitState = s.unitState := rfl
@[simp] theorem rxPush_estopIn (k : RxKind) (s : State) : (rxPush k s).estopIn = s.estopIn := rfl
@[simp] theorem rxPush_txReady (k : RxKind) (s : State) : (rxPush k s).txReady = s.txReady := rfl
@[simp] theorem rxPush_initOk (k : RxKind) (s : State) : (rxPush k s).initOk = s.initOk := rfl
@[simp] theorem rxPush_script (k : RxKind) (s : State) : (rxPush k s).script = s.script := rfl
@[simp] theorem rxPush_arrivals (k : RxKind) (s : State) : (rxPush k s).arrivals = s.arrivals := rfl
@[simp] theorem rxPush_tx (k : RxKind) (s : State) : (rxPush k s).tx = s.tx := rfl

/-! ## dropMalformed -/

@[simp] theorem dropMalformed_cfg (s : State) : (dropMalformed s).cfg = s.cfg := rfl
@[simp] theorem dropMalformed_pstate (s : State) : (dropMalformed s).pstate = .idle := rfl
@[simp] theorem dropMalformed_fbuf (s : State) : (dropMalformed s).fbuf = [] := rfl
@[simp] theorem dropMalformed_curBad (s : State) : (dropMalformed s).curBad = false := rfl
@[simp] theorem dropMalformed_nextBad (s : State) : (dropMalformed s).nextBad = s.nextBad := rfl
@[simp] theorem dropMalformed_crc (s : State) : (dropMalformed s).crc = s.crc := rfl
@[simp] theorem dropMalformed_requestsReceived (s : State) :
    (dropMalformed s).requestsReceived = s.requestsReceived := rfl
@[simp] theorem dropMalformed_responsesSent (s : State) : (dropMalformed s).responsesSent = s.responsesSent := rfl
@[simp] theorem dropMalformed_crcErrors (s : State) : (dropMalformed s).crcErrors = s.crcErrors + 1#16 := rfl
@[simp] theorem dropMalformed_timeoutErrors (s : State) : (dropMalformed s).timeoutErrors = s.timeoutErrors := rfl
@[simp] theorem dropMalformed_rxq (s : State) : (dropMalformed s).rxq = s.rxq := rfl
@[simp] theorem dropMalformed_lastCommMs (s : State) : (dropMalformed s).lastCommMs = s.lastCommMs := rfl
@[simp] theorem dropMalformed_lastTickMs (s : State) : (dropMalformed s).lastTickMs = s.lastTickMs := rfl
@[simp] theorem dropMalformed_commFault (s : State) : (dropMalformed s).commFault = s.commFault := rfl
@[simp] theorem dropMalformed_wdtFault (s : State) : (dropMalformed s).wdtFault = s.wdtFault := rfl
@[simp] theorem dropMalformed_estop (s : State) : (dropMalformed s).estop = s.estop := rfl
@[simp] theorem dropMalformed_reg (s : State) : (dropMalformed s).reg = s.reg := rfl
@[simp] theorem dropMalformed_now (s : State) : (dropMalformed s).now = s.now := rfl
@[simp] theorem dropMalformed_unitState (s : State) : (dropMalformed s).unitState = s.unitState := rfl
@[simp] theorem dropMalformed_estopIn (s : State) : (dropMalformed s).estopIn = s.estopIn := rfl
@[simp] theorem dropMalformed_txReady (s : State) : (dropMalformed s).txReady = s.txReady := rfl
@[simp] theorem dropMalformed_initOk (s : State) : (dropMalformed s).initOk = s.initOk := rfl
@[simp] theorem dropMalformed_script (s : State) : (dropMalformed s).script = s.script := rfl
@[simp] theorem dropMalformed_arrivals (s : State) : (dropMalformed s).arrivals = s.arrivals := rfl
@[simp] theorem dropMalformed_tx (s : State) : (dropMalformed s).tx = s.tx := rfl

/-! ## dropIgnore -/

@[simp] theorem dropIgnore_cfg (s : State) : (dropIgnore s).cfg = s.cfg := rfl
@[simp] theorem dropIgnore_pstate (s : State) : (dropIgnore s).pstate = .idle := rfl
@[simp] theorem dropIgnore_fbuf (s : State) : (dropIgnore s).fbuf = [] := rfl
@[simp] theorem dropIgnore_curBad (s : State) : (dropIgnore s).curBad = false := rfl
@[simp] theorem dropIgnore_nextBad (s : State) : (dropIgnore s).nextBad = s.nextBad := rfl
@[simp] theorem dropIgnore_crc (s : State) : (dropIgnore s).crc = s.crc := rfl
@[simp] theorem dropIgnore_requestsReceived (s : State) : (dropIgnore s).requestsReceived = s.requestsReceived := rfl
@[simp] theorem dropIgnore_responsesSent (s : State) : (dropIgnore s).responsesSent = s.responsesSent := rfl
@[simp] theorem dropIgnore_crcErrors (s : State) : (dropIgnore s).crcErrors = s.crcErrors := rfl
@[simp] theorem dropIgnore_timeoutErrors (s : State) : (dropIgnore s).timeoutErrors = s.timeoutErrors := rfl
@[simp] theorem dropIgnore_rxq (s : State) : (dropIgnore s).rxq = s.rxq := rfl
@[simp] theorem dropIgnore_lastCommMs (s : State) : (dropIgnore s).lastCommMs = s.lastCommMs := rfl
@[simp] theorem dropIgnore_lastTickMs (s : State) : (dropIgnore s).lastTickMs = s.lastTickMs := rfl
@[simp] theorem dropIgnore_commFault (s : State) : (dropIgnore s).commFault = s.commFault := rfl
@[simp] theorem dropIgnore_wdtFault (s : State) : (dropIgnore s).wdtFault = s.wdtFault := rfl
@[simp] theorem dropIgnore_estop (s : State) : (dropIgnore s).estop = s.estop := rfl
@[simp] theorem dropIgnore_reg (s : State) : (dropIgnore s).reg = s.reg := rfl
@[simp] theorem dropIgnore_now (s : State) : (dropIgnore s).now = s.now := rfl
@[simp] theorem dropIgnore_unitState (s : State) : (dropIgnore s).unitState = s.unitState := rfl
@[simp] theorem dropIgnore_estopIn (s : State) : (dropIgnore s).estopIn = s.estopIn := rfl
@[simp] theorem dropIgnore_txReady (s : State) : (dropIgnore s).txReady = s.txReady := rfl
@[simp] theorem dropIgnore_initOk (s : State) : (dropIgnore s).initOk = s.initOk := rfl
@[simp] theorem dropIgnore_script (s : State) : (dropIgnore s).script = s.script := rfl
@[simp] theorem dropIgnore_arrivals (s : State) : (dropIgnore s).arrivals = s.arrivals := rfl
@[simp] theorem dropIgnore_tx (s : State) : (dropIgnore s).tx = s.tx := rfl

/-! ## acceptRequest -/

@[simp] theorem acceptRequest_cfg (r : Request) (s : State) : (acceptRequest r s).cfg = s.cfg := rfl
@[simp] theorem acceptRequest_pstate (r : Request) (s : State) : (acceptRequest r s).pstate = .dispatching r := rfl
@[simp] theorem acceptRequest_fbuf (r : Request) (s : State) : (acceptRequest r s).fbuf = s.fbuf := rfl
@[simp] theorem acceptRequest_curBad (r : Request) (s : State) : (acceptRequest r s).curBad = false := rfl
@[simp] theorem acceptRequest_nextBad (r : Request) (s : State) : (acceptRequest r s).nextBad = s.nextBad := rfl
@[simp] theorem acceptRequest_crc (r : Request) (s : State) : (acceptRequest r s).crc = s.crc := rfl
@[simp] theorem acceptRequest_requestsReceived (r : Request) (s : State) :
    (acceptRequest r s).requestsReceived = s.requestsReceived + 1#16 := rfl
@[simp] theorem acceptRequest_responsesSent (r : Request) (s : State) :
    (acceptRequest r s).responsesSent = s.responsesSent := rfl
@[simp] theorem acceptRequest_crcErrors (r : Request) (s : State) : (acceptRequest r s).crcErrors = s.crcErrors := rfl
@[simp] theorem acceptRequest_timeoutErrors (r : Request) (s : State) :
    (acceptRequest r s).timeoutErrors = s.timeoutErrors := rfl
@[simp] theorem acceptRequest_rxq (r : Request) (s : State) : (acceptRequest r s).rxq = s.rxq := rfl
@[simp] theorem acceptRequest_lastCommMs (r : Request) (s : State) :
    (acceptRequest r s).lastCommMs = if s.cfg.livenessOnException then s.now else s.lastCommMs := rfl
@[simp] theorem acceptRequest_lastTickMs (r : Request) (s : State) :
    (acceptRequest r s).lastTickMs = s.lastTickMs := rfl
@[simp] theorem acceptRequest_commFault (r : Request) (s : State) : (acceptRequest r s).commFault = s.commFault := rfl
@[simp] theorem acceptRequest_wdtFault (r : Request) (s : State) : (acceptRequest r s).wdtFault = s.wdtFault := rfl
@[simp] theorem acceptRequest_estop (r : Request) (s : State) : (acceptRequest r s).estop = s.estop := rfl
@[simp] theorem acceptRequest_reg (r : Request) (s : State) : (acceptRequest r s).reg = s.reg := rfl
@[simp] theorem acceptRequest_now (r : Request) (s : State) : (acceptRequest r s).now = s.now := rfl
@[simp] theorem acceptRequest_unitState (r : Request) (s : State) : (acceptRequest r s).unitState = s.unitState := rfl
@[simp] theorem acceptRequest_estopIn (r : Request) (s : State) : (acceptRequest r s).estopIn = s.estopIn := rfl
@[simp] theorem acceptRequest_txReady (r : Request) (s : State) : (acceptRequest r s).txReady = s.txReady := rfl
@[simp] theorem acceptRequest_initOk (r : Request) (s : State) : (acceptRequest r s).initOk = s.initOk := rfl
@[simp] theorem acceptRequest_script (r : Request) (s : State) : (acceptRequest r s).script = s.script := rfl
@[simp] theorem acceptRequest_arrivals (r : Request) (s : State) : (acceptRequest r s).arrivals = s.arrivals := rfl
@[simp] theorem acceptRequest_tx (r : Request) (s : State) : (acceptRequest r s).tx = s.tx := rfl

/-! ## emitResponse -/

@[simp] theorem emitResponse_cfg (p : List Byte) (exc : Bool) (s : State) : (emitResponse p exc s).cfg = s.cfg := rfl
@[simp] theorem emitResponse_pstate (p : List Byte) (exc : Bool) (s : State) :
    (emitResponse p exc s).pstate = .responding (crcAppend p) := rfl
@[simp] theorem emitResponse_fbuf (p : List Byte) (exc : Bool) (s : State) :
    (emitResponse p exc s).fbuf = s.fbuf := rfl
@[simp] theorem emitResponse_curBad (p : List Byte) (exc : Bool) (s : State) :
    (emitResponse p exc s).curBad = s.curBad := rfl
@[simp] theorem emitResponse_nextBad (p : List Byte) (exc : Bool) (s : State) :
    (emitResponse p exc s).nextBad = s.nextBad := rfl
@[simp] theorem emitResponse_crc (p : List Byte) (exc : Bool) (s : State) : (emitResponse p exc s).crc = s.crc := rfl
@[simp] theorem emitResponse_requestsReceived (p : List Byte) (exc : Bool) (s : State) :
    (emitResponse p exc s).requestsReceived = s.requestsReceived := rfl
@[simp] theorem emitResponse_responsesSent (p : List Byte) (exc : Bool) (s : State) :
    (emitResponse p exc s).responsesSent = s.responsesSent := rfl
@[simp] theorem emitResponse_crcErrors (p : List Byte) (exc : Bool) (s : State) :
    (emitResponse p exc s).crcErrors = s.crcErrors := rfl
@[simp] theorem emitResponse_timeoutErrors (p : List Byte) (exc : Bool) (s : State) :
    (emitResponse p exc s).timeoutErrors = s.timeoutErrors := rfl
@[simp] theorem emitResponse_rxq (p : List Byte) (exc : Bool) (s : State) : (emitResponse p exc s).rxq = s.rxq := rfl
@[simp] theorem emitResponse_lastCommMs (p : List Byte) (exc : Bool) (s : State) :
    (emitResponse p exc s).lastCommMs = if !s.cfg.livenessOnException && !exc then s.now else s.lastCommMs := rfl
@[simp] theorem emitResponse_lastTickMs (p : List Byte) (exc : Bool) (s : State) :
    (emitResponse p exc s).lastTickMs = s.lastTickMs := rfl
@[simp] theorem emitResponse_commFault (p : List Byte) (exc : Bool) (s : State) :
    (emitResponse p exc s).commFault = s.commFault := rfl
@[simp] theorem emitResponse_wdtFault (p : List Byte) (exc : Bool) (s : State) :
    (emitResponse p exc s).wdtFault = s.wdtFault := rfl
@[simp] theorem emitResponse_estop (p : List Byte) (exc : Bool) (s : State) :
    (emitResponse p exc s).estop = s.estop := rfl
@[simp] theorem emitResponse_reg (p : List Byte) (exc : Bool) (s : State) : (emitResponse p exc s).reg = s.reg := rfl
@[simp] theorem emitResponse_now (p : List Byte) (exc : Bool) (s : State) : (emitResponse p exc s).now = s.now := rfl
@[simp] theorem emitResponse_unitState (p : List Byte) (exc : Bool) (s : State) :
    (emitResponse p exc s).unitState = s.unitState := rfl
@[simp] theorem emitResponse_estopIn (p : List Byte) (exc : Bool) (s : State) :
    (emitResponse p exc s).estopIn = s.estopIn := rfl
@[simp] theorem emitResponse_txReady (p : List Byte) (exc : Bool) (s : State) :
    (emitResponse p exc s).txReady = s.txReady := rfl
@[simp] theorem emitResponse_initOk (p : List Byte) (exc : Bool) (s : State) :
    (emitResponse p exc s).initOk = s.initOk := rfl
@[simp] theorem emitResponse_script (p : List Byte) (exc : Bool) (s : State) :
    (emitResponse p exc s).script = s.script := rfl
@[simp] theorem emitResponse_arrivals (p : List Byte) (exc : Bool) (s : State) :
    (emitResponse p exc s).arrivals = s.arrivals := rfl
@[simp] theorem emitResponse_tx (p : List Byte) (exc : Bool) (s : State) : (emitResponse p exc s).tx = s.tx := rfl

/-! ## sendResponse -/

@[simp] theorem sendResponse_cfg (f : List Byte) (s : State) : (sendResponse f s).cfg = s.cfg := rfl
@[simp] theorem sendResponse_pstate (f : List Byte) (s : State) : (sendResponse f s).pstate = .idle := rfl
@[simp] theorem sendResponse_fbuf (f : List Byte) (s : State) : (sendResponse f s).fbuf = [] := rfl
@[simp] theorem sendResponse_curBad (f : List Byte) (s : State) : (sendResponse f s).curBad = s.curBad := rfl
@[simp] theorem sendResponse_nextBad (f : List Byte) (s : State) : (sendResponse f s).nextBad = s.nextBad := rfl
@[simp] theorem sendResponse_crc (f : List Byte) (s : State) : (sendResponse f s).crc = s.crc := rfl
@[simp] theorem sendResponse_requestsReceived (f : List Byte) (s : State) :
    (sendResponse f s).requestsReceived = s.requestsReceived := rfl
@[simp] theorem sendResponse_responsesSent (f : List Byte) (s : State) :
    (sendResponse f s).responsesSent = s.responsesSent + 1#16 := rfl
@[simp] theorem sendResponse_crcErrors (f : List Byte) (s : State) : (sendResponse f s).crcErrors = s.crcErrors := rfl
@[simp] theorem sendResponse_timeoutErrors (f : List Byte) (s : State) :
    (sendResponse f s).timeoutErrors = s.timeoutErrors := rfl
@[simp] theorem sendResponse_rxq (f : List Byte) (s : State) : (sendResponse f s).rxq = s.rxq := rfl
@[simp] theorem sendResponse_lastCommMs (f : List Byte) (s : State) :
    (sendResponse f s).lastCommMs = s.lastCommMs := rfl
@[simp] theorem sendResponse_lastTickMs (f : List Byte) (s : State) :
    (sendResponse f s).lastTickMs = s.lastTickMs := rfl
@[simp] theorem sendResponse_commFault (f : List Byte) (s : State) : (sendResponse f s).commFault = s.commFault := rfl
@[simp] theorem sendResponse_wdtFault (f : List Byte) (s : State) : (sendResponse f s).wdtFault = s.wdtFault := rfl
@[simp] theorem sendResponse_estop (f : List Byte) (s : State) : (sendResponse f s).estop = s.estop := rfl
@[simp] theorem sendResponse_reg (f : List Byte) (s : State) : (sendResponse f s).reg = s.reg := rfl
@[simp] theorem sendResponse_now (f : List Byte) (s : State) : (sendResponse f s).now = s.now := rfl
@[simp] theorem sendResponse_unitState (f : List Byte) (s : State) : (sendResponse f s).unitState = s.unitState := rfl
@[simp] theorem sendResponse_estopIn (f : List Byte) (s : State) : (sendResponse f s).estopIn = s.estopIn := rfl
@[simp] theorem sendResponse_txReady (f : List Byte) (s : State) : (sendResponse f s).txReady = s.txReady := rfl
@[simp] theorem sendResponse_initOk (f : List Byte) (s : State) : (sendResponse f s).initOk = s.initOk := rfl
@[simp] theorem sendResponse_script (f : List Byte) (s : State) : (sendResponse f s).script = s.script := rfl
@[simp] theorem sendResponse_arrivals (f : List Byte) (s : State) : (sendResponse f s).arrivals = s.arrivals := rfl
@[simp] theorem sendResponse_tx (f : List Byte) (s : State) : (sendResponse f s).tx = s.tx ++ [f] := rfl

/-! ## setEstop -/

@[simp] theorem setEstop_cfg (s : State) : (setEstop s).cfg = s.cfg := rfl
@[simp] theorem setEstop_pstate (s : State) : (setEstop s).pstate = s.pstate := rfl
@[simp] theorem setEstop_fbuf (s : State) : (setEstop s).fbuf = s.fbuf := rfl
@[simp] theorem setEstop_curBad (s : State) : (setEstop s).curBad = s.curBad := rfl
@[simp] theorem setEstop_nextBad (s : State) : (setEstop s).nextBad = s.nextBad := rfl
@[simp] theorem setEstop_crc (s : State) : (setEstop s).crc = s.crc := rfl
@[simp] theorem setEstop_requestsReceived (s : State) : (setEstop s).requestsReceived = s.requestsReceived := rfl
@[simp] theorem setEstop_responsesSent (s : State) : (setEstop s).responsesSent = s.responsesSent := rfl
@[simp] theorem setEstop_crcErrors (s : State) : (setEstop s).crcErrors = s.crcErrors := rfl
@[simp] theorem setEstop_timeoutErrors (s : State) : (setEstop s).timeoutErrors = s.timeoutErrors := rfl
@[simp] theorem setEstop_rxq (s : State) : (setEstop s).rxq = s.rxq := rfl
@[simp] theorem setEstop_lastCommMs (s : State) : (setEstop s).lastCommMs = s.lastCommMs := rfl
@[simp] theorem setEstop_lastTickMs (s : State) : (setEstop s).lastTickMs = s.lastTickMs := rfl
@[simp] theorem setEstop_commFault (s : State) : (setEstop s).commFault = s.commFault := rfl
@[simp] theorem setEstop_wdtFault (s : State) : (setEstop s).wdtFault = s.wdtFault := rfl
@[simp] theorem setEstop_estop (s : State) : (setEstop s).estop = true := rfl
@[simp] theorem setEstop_reg (s : State) : (setEstop s).reg = s.reg := rfl
@[simp] theorem setEstop_now (s : State) : (setEstop s).now = s.now := rfl
@[simp] theorem setEstop_unitState (s : State) : (setEstop s).unitState = s.unitState := rfl
@[simp] theorem setEstop_estopIn (s : State) : (setEstop s).estopIn = s.estopIn := rfl
@[simp] theorem setEstop_txReady (s : State) : (setEstop s).txReady = s.txReady := rfl
@[simp] theorem setEstop_initOk (s : State) : (setEstop s).initOk = s.initOk := rfl
@[simp] theorem setEstop_script (s : State) : (setEstop s).script = s.script := rfl
@[simp] theorem setEstop_arrivals (s : State) : (setEstop s).arrivals = s.arrivals := rfl
@[simp] theorem setEstop_tx (s : State) : (setEstop s).tx = s.tx := rfl

/-! ## clearEstop -/

@[simp] theorem clearEstop_cfg (s : State) : (clearEstop s).cfg = s.cfg := rfl
@[simp] theorem clearEstop_pstate (s : State) : (clearEstop s).pstate = s.pstate := rfl
@[simp] theorem clearEstop_fbuf (s : State) : (clearEstop s).fbuf = s.fbuf := rfl
@[simp] theorem clearEstop_curBad (s : State) : (clearEstop s).curBad = s.curBad := rfl
@[simp] theorem clearEstop_nextBad (s : State) : (clearEstop s).nextBad = s.nextBad := rfl
@[simp] theorem clearEstop_crc (s : State) : (clearEstop s).crc = s.crc := rfl
@[simp] theorem clearEstop_requestsReceived (s : State) : (clearEstop s).requestsReceived = s.requestsReceived := rfl
@[simp] theorem clearEstop_responsesSent (s : State) : (clearEstop s).responsesSent = s.responsesSent := rfl
@[simp] theorem clearEstop_crcErrors (s : State) : (clearEstop s).crcErrors = s.crcErrors := rfl
@[simp] theorem clearEstop_timeoutErrors (s : State) : (clearEstop s).timeoutErrors = s.timeoutErrors := rfl
@[simp] theorem clearEstop_rxq (s : State) : (clearEstop s).rxq = s.rxq := rfl
@[simp] theorem clearEstop_lastCommMs (s : State) : (clearEstop s).lastCommMs = s.lastCommMs := rfl
@[simp] theorem clearEstop_lastTickMs (s : State) : (clearEstop s).lastTickMs = s.lastTickMs := rfl
@[simp] theorem clearEstop_commFault (s : State) : (clearEstop s).commFault = s.commFault := rfl
@[simp] theorem clearEstop_wdtFault (s : State) : (clearEstop s).wdtFault = s.wdtFault := rfl
@[simp] theorem clearEstop_estop (s : State) : (clearEstop s).estop = if s.estopIn then s.estop else false := rfl
@[simp] theorem clearEstop_reg (s : State) : (clearEstop s).reg = s.reg := rfl
@[simp] theorem clearEstop_now (s : State) : (clearEstop s).now = s.now := rfl
@[simp] theorem clearEstop_unitState (s : State) : (clearEstop s).unitState = s.unitState := rfl
@[simp] theorem clearEstop_estopIn (s : State) : (clearEstop s).estopIn = s.estopIn := rfl
@[simp] theorem clearEstop_txReady (s : State) : (clearEstop s).txReady = s.txReady := rfl
@[simp] theorem clearEstop_initOk (s : State) : (clearEstop s).initOk = s.initOk := rfl
@[simp] theorem clearEstop_script (s : State) : (clearEstop s).script = s.script := rfl
@[simp] theorem clearEstop_arrivals (s : State) : (clearEstop s).arrivals = s.arrivals := rfl
@[simp] theorem clearEstop_tx (s : State) : (clearEstop s).tx = s.tx := rfl

/-! ## storeWords -/

@[simp] theorem storeWords_cfg (w : List (Nat × Word)) (s : State) : (storeWords w s).cfg = s.cfg := rfl
@[simp] theorem storeWords_pstate (w : List (Nat × Word)) (s : State) : (storeWords w s).pstate = s.pstate := rfl
@[simp] theorem storeWords_fbuf (w : List (Nat × Word)) (s : State) : (storeWords w s).fbuf = s.fbuf := rfl
@[simp] theorem storeWords_curBad (w : List (Nat × Word)) (s : State) : (storeWords w s).curBad = s.curBad := rfl
@[simp] theorem storeWords_nextBad (w : List (Nat × Word)) (s : State) : (storeWords w s).nextBad = s.nextBad := rfl
@[simp] theorem storeWords_crc (w : List (Nat × Word)) (s : State) : (storeWords w s).crc = s.crc := rfl
@[simp] theorem storeWords_requestsReceived (w : List (Nat × Word)) (s : State) :
    (storeWords w s).requestsReceived = s.requestsReceived := rfl
@[simp] theorem storeWords_responsesSent (w : List (Nat × Word)) (s : State) :
    (storeWords w s).responsesSent = s.responsesSent := rfl
@[simp] theorem storeWords_crcErrors (w : List (Nat × Word)) (s : State) :
    (storeWords w s).crcErrors = s.crcErrors := rfl
@[simp] theorem storeWords_timeoutErrors (w : List (Nat × Word)) (s : State) :
    (storeWords w s).timeoutErrors = s.timeoutErrors := rfl
@[simp] theorem storeWords_rxq (w : List (Nat × Word)) (s : State) : (storeWords w s).rxq = s.rxq := rfl
@[simp] theorem storeWords_lastCommMs (w : List (Nat × Word)) (s : State) :
    (storeWords w s).lastCommMs = s.lastCommMs := rfl
@[simp] theorem storeWords_lastTickMs (w : List (Nat × Word)) (s : State) :
    (storeWords w s).lastTickMs = s.lastTickMs := rfl
@[simp] theorem storeWords_commFault (w : List (Nat × Word)) (s : State) :
    (storeWords w s).commFault = s.commFault := rfl
@[simp] theorem storeWords_wdtFault (w : List (Nat × Word)) (s : State) :
    (storeWords w s).wdtFault = s.wdtFault := rfl
@[simp] theorem storeWords_estop (w : List (Nat × Word)) (s : State) :
    (storeWords w s).estop = w.foldl (estopAfterWrite s.cfg s.estopIn) s.estop := rfl
@[simp] theorem storeWords_reg (w : List (Nat × Word)) (s : State) : (storeWords w s).reg = memWrite s.reg w := rfl
@[simp] theorem storeWords_now (w : List (Nat × Word)) (s : State) : (storeWords w s).now = s.now := rfl
@[simp] theorem storeWords_unitState (w : List (Nat × Word)) (s : State) :
    (storeWords w s).unitState = s.unitState := rfl
@[simp] theorem storeWords_estopIn (w : List (Nat × Word)) (s : State) : (storeWords w s).estopIn = s.estopIn := rfl
@[simp] theorem storeWords_txReady (w : List (Nat × Word)) (s : State) : (storeWords w s).txReady = s.txReady := rfl
@[simp] theorem storeWords_initOk (w : List (Nat × Word)) (s : State) : (storeWords w s).initOk = s.initOk := rfl
@[simp] theorem storeWords_script (w : List (Nat × Word)) (s : State) : (storeWords w s).script = s.script := rfl
@[simp] theorem storeWords_arrivals (w : List (Nat × Word)) (s : State) :
    (storeWords w s).arrivals = s.arrivals := rfl
@[simp] theorem storeWords_tx (w : List (Nat × Word)) (s : State) : (storeWords w s).tx = s.tx := rfl

/-! ## evaluate -/

@[simp] theorem evaluate_cfg (s : State) : (evaluate s).cfg = s.cfg := rfl
@[simp] theorem evaluate_pstate (s : State) : (evaluate s).pstate = s.pstate := rfl
@[simp] theorem evaluate_fbuf (s : State) : (evaluate s).fbuf = s.fbuf := rfl
@[simp] theorem evaluate_curBad (s : State) : (evaluate s).curBad = s.curBad := rfl
@[simp] theorem evaluate_nextBad (s : State) : (evaluate s).nextBad = s.nextBad := rfl
@[simp] theorem evaluate_crc (s : State) : (evaluate s).crc = s.crc := rfl
@[simp] theorem evaluate_requestsReceived (s : State) : (evaluate s).requestsReceived = s.requestsReceived := rfl
@[simp] theorem evaluate_responsesSent (s : State) : (evaluate s).responsesSent = s.responsesSent := rfl
@[simp] theorem evaluate_crcErrors (s : State) : (evaluate s).crcErrors = s.crcErrors := rfl
@[simp] theorem evaluate_timeoutErrors (s : State) :
    (evaluate s).timeoutErrors = if timedOut s.now s.lastCommMs Config.commTimeoutMs && !s.commFault then s.timeoutErrors + 1#16 else s.timeoutErrors := rfl
@[simp] theorem evaluate_rxq (s : State) : (evaluate s).rxq = s.rxq := rfl
@[simp] theorem evaluate_lastCommMs (s : State) : (evaluate s).lastCommMs = s.lastCommMs := rfl
@[simp] theorem evaluate_lastTickMs (s : State) : (evaluate s).lastTickMs = s.lastTickMs := rfl
@[simp] theorem evaluate_commFault (s : State) :
    (evaluate s).commFault = timedOut s.now s.lastCommMs Config.commTimeoutMs := rfl
@[simp] theorem evaluate_wdtFault (s : State) :
    (evaluate s).wdtFault = timedOut s.now s.lastTickMs Config.wdtTimeoutMs := rfl
@[simp] theorem evaluate_estop (s : State) : (evaluate s).estop = (s.estop || s.estopIn) := rfl
@[simp] theorem evaluate_reg (s : State) : (evaluate s).reg = s.reg := rfl
@[simp] theorem evaluate_now (s : State) : (evaluate s).now = s.now := rfl
@[simp] theorem evaluate_unitState (s : State) : (evaluate s).unitState = s.unitState := rfl
@[simp] theorem evaluate_estopIn (s : State) : (evaluate s).estopIn = s.estopIn := rfl
@[simp] theorem evaluate_txReady (s : State) : (evaluate s).txReady = s.txReady := rfl
@[simp] theorem evaluate_initOk (s : State) : (evaluate s).initOk = s.initOk := rfl
@[simp] theorem evaluate_script (s : State) : (evaluate s).script = s.script := rfl
@[simp] theorem evaluate_arrivals (s : State) : (evaluate s).arrivals = s.arrivals := rfl
@[simp] theorem evaluate_tx (s : State) : (evaluate s).tx = s.tx := rfl

/-! ## publish -/

@[simp] theorem publish_cfg (s : State) : (publish s).cfg = s.cfg := rfl
@[simp] theorem publish_pstate (s : State) : (publish s).pstate = s.pstate := rfl
@[simp] theorem publish_fbuf (s : State) : (publish s).fbuf = s.fbuf := rfl
@[simp] theorem publish_curBad (s : State) : (publish s).curBad = s.curBad := rfl
@[simp] theorem publish_nextBad (s : State) : (publish s).nextBad = s.nextBad := rfl
@[simp] theorem publish_crc (s : State) : (publish s).crc = s.crc := rfl
@[simp] theorem publish_requestsReceived (s : State) : (publish s).requestsReceived = s.requestsReceived := rfl
@[simp] theorem publish_responsesSent (s : State) : (publish s).responsesSent = s.responsesSent := rfl
@[simp] theorem publish_crcErrors (s : State) : (publish s).crcErrors = s.crcErrors := rfl
@[simp] theorem publish_timeoutErrors (s : State) : (publish s).timeoutErrors = s.timeoutErrors := rfl
@[simp] theorem publish_rxq (s : State) : (publish s).rxq = s.rxq := rfl
@[simp] theorem publish_lastCommMs (s : State) : (publish s).lastCommMs = s.lastCommMs := rfl
@[simp] theorem publish_lastTickMs (s : State) : (publish s).lastTickMs = s.lastTickMs := rfl
@[simp] theorem publish_commFault (s : State) : (publish s).commFault = s.commFault := rfl
@[simp] theorem publish_wdtFault (s : State) : (publish s).wdtFault = s.wdtFault := rfl
@[simp] theorem publish_estop (s : State) : (publish s).estop = s.estop := rfl
@[simp] theorem publish_reg (s : State) : (publish s).reg = memWrite s.reg (publishedPairs s) := rfl
@[simp] theorem publish_now (s : State) : (publish s).now = s.now := rfl
@[simp] theorem publish_unitState (s : State) : (publish s).unitState = s.unitState := rfl
@[simp] theorem publish_estopIn (s : State) : (publish s).estopIn = s.estopIn := rfl
@[simp] theorem publish_txReady (s : State) : (publish s).txReady = s.txReady := rfl
@[simp] theorem publish_initOk (s : State) : (publish s).initOk = s.initOk := rfl
@[simp] theorem publish_script (s : State) : (publish s).script = s.script := rfl
@[simp] theorem publish_arrivals (s : State) : (publish s).arrivals = s.arrivals := rfl
@[simp] theorem publish_tx (s : State) : (publish s).tx = s.tx := rfl

/-! ## resetStep -/

@[simp] theorem resetStep_cfg (s : State) : (resetStep s).cfg = s.cfg := rfl
@[simp] theorem resetStep_pstate (s : State) : (resetStep s).pstate = if s.initOk then .idle else .halted := rfl
@[simp] theorem resetStep_fbuf (s : State) : (resetStep s).fbuf = [] := rfl
@[simp] theorem resetStep_curBad (s : State) : (resetStep s).curBad = false := rfl
@[simp] theorem resetStep_nextBad (s : State) : (resetStep s).nextBad = false := rfl
@[simp] theorem resetStep_crc (s : State) : (resetStep s).crc = Config.crcSeed := rfl
@[simp] theorem resetStep_requestsReceived (s : State) : (resetStep s).requestsReceived = 0#16 := rfl
@[simp] theorem resetStep_responsesSent (s : State) : (resetStep s).responsesSent = 0#16 := rfl
@[simp] theorem resetStep_crcErrors (s : State) : (resetStep s).crcErrors = 0#16 := rfl
@[simp] theorem resetStep_timeoutErrors (s : State) : (resetStep s).timeoutErrors = 0#16 := rfl
@[simp] theorem resetStep_rxq (s : State) : (resetStep s).rxq = [] := rfl
@[simp] theorem resetStep_lastCommMs (s : State) : (resetStep s).lastCommMs = s.now := rfl
@[simp] theorem resetStep_lastTickMs (s : State) : (resetStep s).lastTickMs = s.now := rfl
@[simp] theorem resetStep_commFault (s : State) : (resetStep s).commFault = false := rfl
@[simp] theorem resetStep_wdtFault (s : State) : (resetStep s).wdtFault = false := rfl
@[simp] theorem resetStep_estop (s : State) : (resetStep s).estop = false := rfl
@[simp] theorem resetStep_reg (s : State) : (resetStep s).reg = s.reg := rfl
@[simp] theorem resetStep_now (s : State) : (resetStep s).now = s.now := rfl
@[simp] theorem resetStep_unitState (s : State) : (resetStep s).unitState = s.unitState := rfl
@[simp] theorem resetStep_estopIn (s : State) : (resetStep s).estopIn = s.estopIn := rfl
@[simp] theorem resetStep_txReady (s : State) : (resetStep s).txReady = s.txReady := rfl
@[simp] theorem resetStep_initOk (s : State) : (resetStep s).initOk = s.initOk := rfl
@[simp] theorem resetStep_script (s : State) : (resetStep s).script = s.script := rfl
@[simp] theorem resetStep_arrivals (s : State) : (resetStep s).arrivals = s.arrivals := rfl
@[simp] theorem resetStep_tx (s : State) : (resetStep s).tx = s.tx := rfl

/-! ## The units -/

/-- The units in the order of their numbers (10_state.md R30). -/
theorem units_toList (us : Units) : us.toList = [us[0], us[1], us[2], us[3]] := by
  obtain ⟨⟨l⟩, h⟩ := us
  match l, h with
  | [_, _, _, _], _ => rfl

/-- `ACTIVE_MASK` has bit `n - 1` for unit `n` (43_monitor.md R211). -/
theorem activeMask_eq (us : Units) :
    activeMask us = statusBit (us[0] == .running) 0 ||| (statusBit (us[1] == .running) 1 |||
      (statusBit (us[2] == .running) 2 ||| (statusBit (us[3] == .running) 3 ||| 0#16))) := by
  simp only [activeMask, units_toList, maskFrom]

/-- `ACTIVE_COUNT` over the four units (43_monitor.md R211). -/
theorem activeCount_eq (us : Units) :
    activeCount us = BitVec.ofNat 16 ([us[0], us[1], us[2], us[3]].countP (· == .running)) := by
  simp only [activeCount, units_toList]

/-- Some unit reports FAULT (43_monitor.md R210). -/
theorem unitFault_iff (us : Units) :
    unitFault us = true ↔ us[0] = .fault ∨ us[1] = .fault ∨ us[2] = .fault ∨ us[3] = .fault := by
  unfold unitFault
  rw [units_toList]
  simp only [List.any_cons, List.any_nil, Bool.or_false, Bool.or_eq_true, beq_iff_eq]

end Sys2Proof.Machine
end

