-- ==== Sys2Proof/Laws/Engine.lean ====
section
/-! SUPPORT. What the engine's steps can do, said once each: taking an entry, validating, a function code's step, and the
loop of SERVICE with its bound. -/

namespace Sys2Proof.Machine

/-! ## Meanings that run where they are enabled -/

theorem unlessHalted_next {f : State → State} {s : State} (h : s.pstate ≠ .halted) : unlessHalted f s = .next (f s) := by
  simp [unlessHalted, h]

theorem unlessHalted_halted {f : State → State} {s : State} (h : s.pstate = .halted) :
    unlessHalted f s = .refused .halted := by
  simp [unlessHalted, h]

/-- What a block event answers: its effect outside HALTED. -/
theorem unlessHalted_cases {f : State → State} {s t : State} (h : unlessHalted f s = .next t) :
    s.pstate ≠ .halted ∧ t = f s := by
  unfold unlessHalted at h
  split at h
  · cases h
  · exact ⟨‹_›, by cases h; rfl⟩

theorem whenDispatching_next {f : State → State} {s : State} {r : Request} (h : s.pstate = .dispatching r) :
    whenDispatching f s = .next (f s) := by
  simp [whenDispatching, h]

/-- What a function code answers: its step in DISPATCHING. -/
theorem whenDispatching_cases {f : State → State} {s t : State} (h : whenDispatching f s = .next t) :
    (∃ r, s.pstate = .dispatching r) ∧ t = f s := by
  unfold whenDispatching at h
  split at h <;> cases h
  exact ⟨⟨_, ‹_›⟩, rfl⟩

/-! ## Function codes -/

@[simp] theorem storeWords_nil (s : State) : storeWords [] s = s := rfl

theorem wordBytes_length (w : Word) : (wordBytes w).length = 2 := rfl

theorem flatMap_wordBytes_length (ws : List Word) : (ws.flatMap wordBytes).length = 2 * ws.length := by
  induction ws with
  | nil => rfl
  | cons w rest ih => simp [wordBytes_length, ih]; omega

/-- The reads that pass R161's checks. -/
theorem checkRead_none {start qty : Nat} (h : checkRead start qty = none) :
    1 ≤ qty ∧ qty ≤ 125 ∧ ∀ a ∈ addressRange start qty, mapped a = true := by
  simp only [checkRead] at h
  split at h
  · cases h
  · rename_i h1
    split at h
    · cases h
    · split at h
      · cases h
      · rename_i h3
        simp only [List.any_eq_true, not_exists, not_and, Bool.not_eq_true', Bool.not_eq_false] at h3
        simp only [Config.qtyMaxRd, not_or, Nat.not_lt] at h1
        exact ⟨by omega, by omega, h3⟩

/-- The single writes that pass R165's checks. -/
theorem checkWrite1_none {p : Params} {a : Nat} {v : Word} (h : checkWrite1 p a v = none) :
    writable p a = true ∧ legal p a v = true := by
  simp only [checkWrite1] at h
  split at h
  · cases h
  · split at h
    · cases h
    · simp_all

/-- The multiple writes that pass the checks of R169 and R170. -/
theorem checkWriteMultiple_none {p : Params} {start qty bcount : Nat} {data : List Byte}
    (h : checkWriteMultiple p start qty bcount data = none) :
    1 ≤ qty ∧ qty ≤ 123 ∧ bcount = 2 * qty ∧
      ∀ w ∈ writePairs start qty data, writable p w.1 = true ∧ legal p w.1 w.2 = true := by
  simp only [checkWriteMultiple, checkWrCount, checkWrRange, checkWrValues] at h
  split at h
  · cases h
  · rename_i h1
    split at h1
    · cases h1
    · rename_i hc
      split at h
      · cases h
      · rename_i h2
        split at h2
        · cases h2
        · split at h2
          · cases h2
          · rename_i hr
            split at h
            · cases h
            · rename_i hv
              simp only [List.any_eq_true, not_exists, not_and, Bool.not_eq_true', Bool.not_eq_false] at hr hv
              simp only [Config.qtyMaxWr, not_or, Nat.not_lt, ne_eq, not_not] at hc
              refine ⟨by omega, by omega, hc.2.2, fun w hw => ⟨?_, hv w hw⟩⟩
              obtain ⟨j, hj, rfl⟩ := mem_writePairs.mp hw
              exact hr _ (mem_addressRange.mpr ⟨j, hj, rfl⟩)

/-- Everything a function code's step can do: it stores words that are all writable and legal, at distinct addresses
(none, unless it is an accepted write), and moves to RESPONDING with a response that fits a frame (R174, R175, R179). -/
theorem functionStep_shape {i : Instr} {s t : State}
    (hi : (∃ a st q, i = .readHolding a st q) ∨ (∃ a tg v, i = .writeSingle a tg v) ∨
      (∃ a st q b d, i = .writeMultiple a st q b d) ∨ ∃ a fc, i = .illegalFunction a fc)
    (h : functionStep i s = t) :
    ∃ (payload : List Byte) (exc : Bool) (w : List (Nat × Word)),
      t = emitResponse payload exc (storeWords w s) ∧ 3 ≤ payload.length ∧ payload.length ≤ 253 ∧
      (w.map Prod.fst).Nodup ∧
      (∀ x ∈ w, writable s.cfg x.1 = true ∧ legal s.cfg x.1 x.2 = true ∧ x.1 ≤ Config.lastAddress) := by
  subst h
  rcases hi with ⟨a, st, q, rfl⟩ | ⟨a, tg, v, rfl⟩ | ⟨a, st, q, b, d, rfl⟩ | ⟨a, fc, rfl⟩
  · simp only [functionStep, readHoldingStep]
    split
    · exact ⟨_, true, [], rfl, by simp, by simp, by simp, by simp⟩
    · rename_i hc
      obtain ⟨h1, h2, -⟩ := checkRead_none hc
      have hl := flatMap_wordBytes_length (memRead s.reg st.toNat q.toNat)
      have hr : (memRead s.reg st.toNat q.toNat).length = q.toNat := by simp [memRead]
      refine ⟨_, false, [], rfl, ?_, ?_, by simp, by simp⟩ <;>
        simp only [readResponse, List.length_append, List.length_cons, List.length_nil, hl, hr] <;> omega
  · simp only [functionStep, writeSingleStep]
    split
    · exact ⟨_, true, [], rfl, by simp, by simp, by simp, by simp⟩
    · rename_i hc
      obtain ⟨h1, h2⟩ := checkWrite1_none hc
      refine ⟨_, false, [(tg.toNat, v)], rfl, by simp [wordBytes], by simp [wordBytes], by simp, ?_⟩
      rintro x hx
      obtain rfl := List.mem_singleton.mp hx
      have := mapped_lt (writable_mapped h1)
      exact ⟨h1, h2, by simp only [Config.lastAddress]; omega⟩
  · simp only [functionStep, writeMultipleStep]
    split
    · exact ⟨_, true, [], rfl, by simp, by simp, by simp, by simp⟩
    · rename_i hc
      obtain ⟨-, -, -, h4⟩ := checkWriteMultiple_none hc
      refine ⟨_, false, writePairs st.toNat q.toNat d, rfl, by simp [wordBytes], by simp [wordBytes],
        writePairs_nodup _ _ _, fun x hx => ?_⟩
      have := mapped_lt (writable_mapped (h4 x hx).1)
      exact ⟨(h4 x hx).1, (h4 x hx).2, by simp only [Config.lastAddress]; omega⟩
  · exact ⟨_, true, [], rfl, by simp, by simp, by simp, by simp⟩

/-- The decoder of a request selects a function code (R87). -/
theorem selectFunction_is_function (p : Params) (r : Request) :
    (∃ a st q, selectFunction p r = .readHolding a st q) ∨ (∃ a tg v, selectFunction p r = .writeSingle a tg v) ∨
      (∃ a st q b d, selectFunction p r = .writeMultiple a st q b d) ∨
      ∃ a fc, selectFunction p r = .illegalFunction a fc := by
  unfold selectFunction
  split
  · exact .inl ⟨_, _, _, rfl⟩
  · split
    · exact .inr (.inl ⟨_, _, _, rfl⟩)
    · split
      · exact .inr (.inr (.inl ⟨_, _, _, _, _, rfl⟩))
      · exact .inr (.inr (.inr ⟨_, _, rfl⟩))

/-! ## Engine steps -/

/-- Taking an entry in IDLE (R132, R134, R135, R136). -/
theorem idle_take (e : RxEntry) (s : State) :
    applyLost e (takeInIdle e.kind s) =
      match e.kind with
      | .byte b => { s with fbuf := [b], curBad := s.nextBad || e.lost, nextBad := false, pstate := .receiving }
      | .gap => { s with nextBad := s.nextBad || e.lost }
      | .err => { s with fbuf := [], curBad := true, nextBad := false, pstate := .receiving } := by
  obtain ⟨k, l⟩ := e
  cases k <;> cases l <;> simp [applyLost, takeInIdle]

/-- Taking an entry in RECEIVING (R133 to R136). -/
theorem receiving_take (e : RxEntry) (s : State) :
    applyLost e (takeInReceiving e.kind s) =
      match e.kind with
      | .byte b =>
          { s with
            fbuf := if s.fbuf.length < Config.frameMax then s.fbuf ++ [b] else s.fbuf
            curBad := if s.fbuf.length < Config.frameMax then s.curBad || e.lost else true }
      | .gap => { s with nextBad := s.nextBad || e.lost, pstate := .validating }
      | .err => { s with curBad := true } := by
  obtain ⟨k, l⟩ := e
  cases k with
  | byte b =>
    by_cases h : s.fbuf.length < Config.frameMax <;> cases l <;> simp [applyLost, takeInReceiving, h]
  | gap => cases l <;> simp [applyLost, takeInReceiving]
  | err => cases l <;> simp [applyLost, takeInReceiving]

/-- The validation step is one of its three ends (R149). -/
theorem validateStep_cases (s : State) :
    (∃ c, classify s.cfg s.curBad s.fbuf = .malformed c ∧ validateStep s = dropMalformed s) ∨
    (classify s.cfg s.curBad s.fbuf = .ignore ∧ validateStep s = dropIgnore s) ∨
    ∃ r, classify s.cfg s.curBad s.fbuf = .accept r ∧ validateStep s = acceptRequest r s := by
  unfold validateStep
  split <;> rename_i h
  · exact .inl ⟨_, h, rfl⟩
  · exact .inr (.inl ⟨h, rfl⟩)
  · exact .inr (.inr ⟨_, h, rfl⟩)

/-- Everything an engine step can be (R186's table). -/
theorem engineStep_cases {s t : State} (h : engineStep s = some t) :
    (s.pstate = .idle ∧ ∃ e rest, s.rxq = e :: rest ∧ t = applyLost e (takeInIdle e.kind { s with rxq := rest })) ∨
    (s.pstate = .receiving ∧
      ∃ e rest, s.rxq = e :: rest ∧ t = applyLost e (takeInReceiving e.kind { s with rxq := rest })) ∨
    (s.pstate = .validating ∧ t = validateStep s) ∨
    (∃ r, s.pstate = .dispatching r ∧ t = functionStep (selectFunction s.cfg r) s) ∨
    ∃ rbuf, s.pstate = .responding rbuf ∧ s.txReady = true ∧ t = sendResponse rbuf s := by
  unfold engineStep at h
  split at h <;> rename_i hp
  · split at h <;> rename_i hq
    · cases h
    · exact .inl ⟨hp, _, _, hq, by simpa using h.symm⟩
  · split at h <;> rename_i hq
    · cases h
    · exact .inr (.inl ⟨hp, _, _, hq, by simpa using h.symm⟩)
  · exact .inr (.inr (.inl ⟨hp, by simpa using h.symm⟩))
  · exact .inr (.inr (.inr (.inl ⟨_, hp, by simpa using h.symm⟩)))
  · split at h
    · exact .inr (.inr (.inr (.inr ⟨_, hp, ‹_›, by simpa using h.symm⟩)))
    · cases h
  · cases h

/-! ## The loop of SERVICE -/

theorem pushEntry_length (depth : Nat) (k : RxKind) (q : List RxEntry) :
    (pushEntry depth k q).length = if q.length < depth then q.length + 1 else q.length := by
  have hm : ∀ q : List RxEntry, (markNewest q).length = q.length := by
    intro q
    induction q with
    | nil => rfl
    | cons e rest ih =>
      cases rest with
      | nil => rfl
      | cons f rest => simpa [markNewest] using ih
  unfold pushEntry
  split <;> simp [hm]

/-- What an arrival in the middle of a SERVICE does (R8). -/
theorem takeArrival_cases {s t : State} (h : takeArrival s = some t) :
    ∃ x rest, s.arrivals = x :: rest ∧ x.after = 0 ∧ t = rxPush x.kind { s with arrivals := rest } := by
  unfold takeArrival at h
  split at h
  · cases h
  · split at h
    · exact ⟨_, _, ‹_›, ‹_›, by simpa using h.symm⟩
    · cases h

theorem takeArrival_bound {s t : State} (h : takeArrival s = some t) : serviceBound t < serviceBound s := by
  obtain ⟨x, rest, h1, -, rfl⟩ := takeArrival_cases h
  have := pushEntry_length s.cfg.rxqDepth x.kind s.rxq
  simp only [serviceBound, rxPush, h1, List.length_cons]
  split at this <;> omega

@[simp] theorem countArrivals_bound (s : State) : serviceBound (countArrivals s) = serviceBound s := by
  unfold countArrivals
  split
  · rfl
  · rename_i h
    simp [serviceBound, h]

theorem engineStep_bound {s t : State} (h : engineStep s = some t) : serviceBound t < serviceBound s := by
  rcases engineStep_cases h with ⟨hp, e, rest, hq, rfl⟩ | ⟨hp, e, rest, hq, rfl⟩ | ⟨hp, rfl⟩ | ⟨r, hp, rfl⟩ |
    ⟨rbuf, hp, -, rfl⟩
  · rw [idle_take]
    obtain ⟨k, l⟩ := e
    cases k <;> simp [serviceBound, hp, hq, PState.stepsLeft]
  · rw [receiving_take]
    obtain ⟨k, l⟩ := e
    cases k
    all_goals simp [serviceBound, hp, hq, PState.stepsLeft]
    all_goals omega
  · rcases validateStep_cases s with ⟨c, -, h⟩ | ⟨-, h⟩ | ⟨r, -, h⟩ <;> rw [h] <;>
      simp [serviceBound, hp, PState.stepsLeft]
  · obtain ⟨payload, exc, w, h, -⟩ := functionStep_shape (selectFunction_is_function s.cfg r) (s := s) rfl
    rw [h]
    simp [serviceBound, hp, PState.stepsLeft]
  · simp [serviceBound, hp, PState.stepsLeft]

/-- What every arrival and every engine step keep, SERVICE keeps. -/
theorem serviceLoop_keeps {P : State → Prop} (ha : ∀ s t, P s → takeArrival s = some t → P t)
    (he : ∀ s t, P s → takeArrival s = none → engineStep s = some t → P (countArrivals t)) (n : Nat) (s : State) (h : P s) :
    P (serviceLoop n s) := by
  induction n generalizing s with
  | zero => exact h
  | succ n ih =>
    simp only [serviceLoop]
    split
    · exact ih _ (ha _ _ h ‹_›)
    · split
      · exact ih _ (he _ _ h ‹_› ‹_›)
      · exact h

/-- With its bound the loop ends where no arrival is due and no engine step is enabled (R186). -/
theorem serviceLoop_ends (n : Nat) (s : State) (h : serviceBound s < n) :
    takeArrival (serviceLoop n s) = none ∧ engineStep (serviceLoop n s) = none := by
  induction n generalizing s with
  | zero => omega
  | succ n ih =>
    simp only [serviceLoop]
    split
    · rename_i t ht
      exact ih t (by have := takeArrival_bound ht; omega)
    · split
      · rename_i t ht
        exact ih _ (by have := engineStep_bound ht; rw [countArrivals_bound]; omega)
      · exact ⟨‹_›, ‹_›⟩

/-- Once the fuel is above the bound, more of it changes nothing. -/
theorem serviceLoop_fuel (n m : Nat) (s : State) (hn : serviceBound s < n) (hm : serviceBound s < m) :
    serviceLoop n s = serviceLoop m s := by
  induction n generalizing m s with
  | zero => omega
  | succ n ih =>
    obtain _ | m := m
    · omega
    simp only [serviceLoop]
    split
    · rename_i t ht
      have := takeArrival_bound ht
      exact ih m t (by omega) (by omega)
    · split
      · rename_i t ht
        have := engineStep_bound ht
        exact ih m _ (by rw [countArrivals_bound]; omega) (by rw [countArrivals_bound]; omega)
      · rfl

/-- SERVICE takes an arrival that is due, then goes on (R8, R186). -/
theorem serviceStep_arrival {s t : State} (h : takeArrival s = some t) : serviceStep s = serviceStep t := by
  have := takeArrival_bound h
  unfold serviceStep
  rw [serviceLoop]
  simp only [h]
  exact serviceLoop_fuel _ _ _ (by omega) (by omega)

/-- With no arrival due SERVICE takes the one enabled step, then goes on (R186). -/
theorem serviceStep_engine {s t : State} (ha : takeArrival s = none) (h : engineStep s = some t) :
    serviceStep s = serviceStep (countArrivals t) := by
  have := engineStep_bound h
  unfold serviceStep
  rw [serviceLoop]
  simp only [ha, h]
  exact serviceLoop_fuel _ _ _ (by rw [countArrivals_bound]; omega) (by rw [countArrivals_bound]; omega)

/-- With no arrival due and no step enabled SERVICE changes nothing (R186). -/
theorem serviceStep_done {s : State} (ha : takeArrival s = none) (h : engineStep s = none) : serviceStep s = s := by
  simp only [serviceStep, serviceLoop, ha, h]

/-- No engine step touches the pending arrivals or enters HALTED (R21, R187). -/
theorem engineStep_arrivals {s t : State} (h : engineStep s = some t) :
    t.arrivals = s.arrivals ∧ t.pstate ≠ .halted := by
  rcases engineStep_cases h with ⟨hp, e, rest, -, rfl⟩ | ⟨hp, e, rest, -, rfl⟩ | ⟨-, rfl⟩ | ⟨r, -, rfl⟩ | ⟨_, -, -, rfl⟩
  · rw [idle_take]
    obtain ⟨k, l⟩ := e
    cases k <;> simp [hp]
  · rw [receiving_take]
    obtain ⟨k, l⟩ := e
    cases k <;> simp [hp]
  · rcases validateStep_cases s with ⟨_, -, h⟩ | ⟨-, h⟩ | ⟨_, -, h⟩ <;> rw [h] <;> simp
  · obtain ⟨_, _, _, h, -⟩ := functionStep_shape (selectFunction_is_function s.cfg r) (s := s) rfl
    rw [h]
    simp
  · simp

end Sys2Proof.Machine
end

