-- ==== Sys2Proof/Laws/PerInstr.lean ====
section
/-! SUPPORT. What holds of every instruction as syntax, said constructor by constructor: the size of its encoding
(30_encoding.md R80 to R85, 10_state.md R22). -/

namespace Sys2Proof.Laws.EncodeSize

open Sys2Proof Sys2Proof.Machine

/-- What an encoding's size may be: a port event has no length of its own; a request frame has between MIN_FRAME and
FRAME_MAX bytes. -/
def sizeOk : Encoded → Prop
  | .port _ _ => True
  | .frame f => Config.minFrame ≤ f.length ∧ f.length ≤ Config.frameMax

/-- The encoding of a well-formed instruction fits the frame buffer and passes the minimum-length check. -/
def Statement (i : Instr) : Prop := ∀ p : Params, i.wellFormed p = true → sizeOk (encode i)

theorem readHolding (addr : Byte) (start qty : Word) : Statement (.readHolding addr start qty) := by
  intro p _
  have hl : (requestBody (.readHolding addr start qty)).length = 6 := rfl
  simp only [sizeOk, encode, crcAppend_length, hl]
  decide

theorem writeSingle (addr : Byte) (target value : Word) : Statement (.writeSingle addr target value) := by
  intro p _
  have hl : (requestBody (.writeSingle addr target value)).length = 6 := rfl
  simp only [sizeOk, encode, crcAppend_length, hl]
  decide

theorem writeMultiple (addr : Byte) (start qty : Word) (bcount : Byte) (data : List Byte) :
    Statement (.writeMultiple addr start qty bcount data) := by
  intro p h
  simp only [Instr.wellFormed, Bool.and_eq_true, decide_eq_true_eq] at h
  have hl : (requestBody (.writeMultiple addr start qty bcount data)).length = 7 + data.length := by
    simp only [requestBody, wordBytes, List.length_append, List.length_cons, List.length_nil]
  have hm : Config.minFrame = 4 := rfl
  simp only [sizeOk, encode, crcAppend_length, hl, hm]
  omega

theorem illegalFunction (addr fc : Byte) : Statement (.illegalFunction addr fc) := by
  intro p _
  have hl : (requestBody (.illegalFunction addr fc)).length = 2 := rfl
  simp only [sizeOk, encode, crcAppend_length, hl]
  decide

theorem reset : Statement .reset := fun _ _ => trivial
theorem rxByte (b : Byte) : Statement (.rxByte b) := fun _ _ => trivial
theorem rxGap : Statement .rxGap := fun _ _ => trivial
theorem rxErr : Statement .rxErr := fun _ _ => trivial
theorem service : Statement .service := fun _ _ => trivial
theorem tick : Statement .tick := fun _ _ => trivial
theorem monEval : Statement .monEval := fun _ _ => trivial
theorem estopSet : Statement .estopSet := fun _ _ => trivial
theorem estopClear : Statement .estopClear := fun _ _ => trivial
theorem statsClear : Statement .statsClear := fun _ _ => trivial
theorem crcInit : Statement .crcInit := fun _ _ => trivial
theorem crcUpdate (b : Byte) : Statement (.crcUpdate b) := fun _ _ => trivial
theorem reservedEvent (code : BitVec 4) : Statement (.reservedEvent code) := fun _ _ => trivial

end Sys2Proof.Laws.EncodeSize
end

