-- ==== Sys2Proof/Tests/Slice0.lean ====
section
/-! SUPPORT. Tests. Every expected value is from the spec: a vector V-... of 95_test_vectors.md, an example of a rule, or
a layout of 30_encoding.md written out by hand. Then one witness for each obligation that has hypotheses. -/

namespace Sys2Proof.Tests

set_option Elab.async false

open Sys2Proof Sys2Proof.Machine

/-! ## Helpers -/

/-- The next state, if there is one. -/
def nextOf : Result → Option State
  | .next t => some t
  | .fault _ => none
  | .refused _ => none

/-- The refusal, if there is one. -/
def refusedOf : Result → Option Refusal
  | .next _ => none
  | .fault _ => none
  | .refused r => some r

/-- A decoded instruction, if there is one. -/
def decoded (p : Params) (e : Encoded) : Option Instr := (decode p e).toOption

/-- The block right after reset, in another protocol state. -/
def inState (p : PState) : State := { State.reset with pstate := p }

/-- The block in HALTED. -/
def halted : State := { inState .halted with initOk := false }

/-- A state with an accepted frame. -/
def withFrame (f : List Byte) (s : State) : State := { s with fbuf := f, pstate := .dispatching (parseRequest f) }

/-- A state with a queue. -/
def withQueue (q : List RxEntry) (s : State) : State := { s with rxq := q }

/-- The response a step leaves in RESPONDING, with the register map and the latch. -/
def answer (s : State) : Option (List Byte × Memory × Bool) :=
  match nextOf (step s) with
  | some t => match t.pstate with
    | .responding rbuf => some (rbuf, t.reg, t.estop)
    | .idle | .receiving | .validating | .dispatching _ | .halted => none
  | none => none

/-- V-FR-1's frame. -/
def readFrame : List Byte := [0x01#8, 0x03#8, 0x00#8, 0x00#8, 0x00#8, 0x01#8, 0x84#8, 0x0A#8]

/-- V-WS-1's frame. -/
def writeFrame : List Byte := [0x01#8, 0x06#8, 0x01#8, 0x01#8, 0x00#8, 0x32#8, 0x58#8, 0x23#8]

/-- V-WM-1's frame. -/
def multiFrame : List Byte :=
  [0x01#8, 0x10#8, 0x01#8, 0x00#8, 0x00#8, 0x02#8, 0x04#8, 0x00#8, 0x01#8, 0x00#8, 0x32#8, 0x2E#8, 0x2A#8]

/-- V-IF-4's frame. -/
def illegalFrame : List Byte := [0x01#8, 0x07#8, 0x41#8, 0xE2#8]

/-- The default field map with one entry more. -/
def mapPlus (e : FieldEntry) : List FieldEntry := e :: Config.defaultFieldMap

/-! ## Well-formedness and parameters: each check refuses an ill-formed term -/

theorem smoke_wellFormed :
    Instr.wellFormed Config.defaultParams (.readHolding 0x02#8 0#16 1#16) = false ∧
    Instr.wellFormed Config.defaultParams (.writeSingle 0x00#8 0x10#16 1#16) = false ∧
    Instr.wellFormed Config.defaultParams (.writeMultiple 0x02#8 0x10#16 1#16 2#8 [0#8, 1#8]) = false ∧
    Instr.wellFormed { Config.defaultParams with fc10Supported := false }
      (.writeMultiple 0x01#8 0x10#16 1#16 2#8 [0#8, 1#8]) = false ∧
    Instr.wellFormed Config.defaultParams (.writeMultiple 0x01#8 0x10#16 1#16 3#8 [0#8, 1#8]) = false ∧
    Instr.wellFormed Config.defaultParams (.writeMultiple 0x01#8 0x10#16 1#16 248#8 (List.replicate 248 0#8)) = false ∧
    Instr.wellFormed Config.defaultParams (.illegalFunction 0x02#8 0x07#8) = false ∧
    Instr.wellFormed Config.defaultParams (.illegalFunction 0x01#8 0x03#8) = false ∧
    Instr.wellFormed Config.defaultParams (.illegalFunction 0x01#8 0x06#8) = false ∧
    Instr.wellFormed Config.defaultParams (.illegalFunction 0x01#8 0x10#8) = false ∧
    Instr.wellFormed Config.defaultParams (.reservedEvent 0xB#4) = false := by decide +kernel

theorem smoke_paramsOk :
    paramsOk Config.defaultParams = true ∧
    paramsOk { Config.defaultParams with slaveId := 0#8 } = false ∧
    paramsOk { Config.defaultParams with slaveId := 248#8 } = false ∧
    paramsOk { Config.defaultParams with rxqDepth := 0 } = false ∧
    -- two GLOBAL_ESTOP fields, and none
    paramsOk { Config.defaultParams with fieldMap := mapPlus ⟨0x13, .globalEstop, .bool⟩ } = false ∧
    paramsOk { Config.defaultParams with
      fieldMap := Config.defaultFieldMap.filter (fun e => e.name != .globalEstop) } = false ∧
    -- a BOOL word of class SS
    paramsOk { Config.defaultParams with fieldMap := mapPlus ⟨0x05, .globalEnable, .bool⟩ } = false ∧
    -- two entries at one address, and an address that is no u16
    paramsOk { Config.defaultParams with fieldMap := mapPlus ⟨0x10, .powerW 1, .word⟩ } = false ∧
    paramsOk { Config.defaultParams with fieldMap := mapPlus ⟨0x10000, .powerW 1, .word⟩ } = false ∧
    -- a published word missing, and one outside the System Status block
    paramsOk { Config.defaultParams with
      fieldMap := Config.defaultFieldMap.filter (fun e => e.name != .activeMask) } = false ∧
    paramsOk { Config.defaultParams with
      fieldMap := ⟨0x110, .activeMask, .word⟩ ::
        Config.defaultFieldMap.filter (fun e => e.name != .activeMask && e.addr != 0x110) } = false := by decide

/-! ## Decoding: a word of every constructor, written out from the spec's layouts -/

/-- R81 with V-RD-9's bytes. -/
theorem test_decode_readHolding :
    decoded Config.defaultParams (.frame [0x01#8, 0x03#8, 0x00#8, 0x0E#8, 0x00#8, 0x03#8, 0x64#8, 0x08#8])
      = some (.readHolding 0x01#8 0x000E#16 0x0003#16) := by decide +kernel

/-- R82 with V-WS-1's bytes. -/
theorem test_decode_writeSingle :
    decoded Config.defaultParams (.frame writeFrame) = some (.writeSingle 0x01#8 0x0101#16 0x0032#16) := by
  decide +kernel

/-- R83 with V-WM-1's bytes. -/
theorem test_decode_writeMultiple :
    decoded Config.defaultParams (.frame multiFrame)
      = some (.writeMultiple 0x01#8 0x0100#16 0x0002#16 0x04#8 [0x00#8, 0x01#8, 0x00#8, 0x32#8]) := by decide +kernel

/-- R87's catch-all row with V-IF-4's bytes, and 0x10 without FC10_SUPPORTED (V-WM-10). -/
theorem test_decode_illegalFunction :
    decoded Config.defaultParams (.frame illegalFrame) = some (.illegalFunction 0x01#8 0x07#8) ∧
    decoded { Config.defaultParams with fc10Supported := false } (.frame multiFrame)
      = some (.illegalFunction 0x01#8 0x10#8) := by decide +kernel

/-- R84's table, row by row. -/
theorem test_decode_events :
    ((List.range 16).map (fun c => decodePort (BitVec.ofNat 4 c) 0x5A#8)) =
      [.reset, .rxByte 0x5A#8, .rxGap, .rxErr, .service, .tick, .monEval, .estopSet, .estopClear, .statsClear,
       .crcInit, .crcUpdate 0x5A#8, .reservedEvent 0xC#4, .reservedEvent 0xD#4, .reservedEvent 0xE#4,
       .reservedEvent 0xF#4] := by decide

/-- The drops of V-FR-5, V-FR-6, V-FR-7, V-FR-8 and V-FR-10, each by name. -/
theorem test_decode_rejects_by_name :
    classify Config.defaultParams true readFrame = .malformed .poisoned ∧
    classify Config.defaultParams false [0x01#8, 0x03#8, 0x00#8] = .malformed .short ∧
    classify Config.defaultParams false
      [0x01#8, 0x03#8, 0x00#8, 0x00#8, 0x00#8, 0x01#8, 0x84#8, 0x0B#8] = .malformed .crc ∧
    classify Config.defaultParams false
      [0x02#8, 0x03#8, 0x00#8, 0x00#8, 0x00#8, 0x01#8, 0x00#8, 0x00#8] = .malformed .crc ∧
    classify Config.defaultParams false
      [0x02#8, 0x03#8, 0x00#8, 0x00#8, 0x00#8, 0x01#8, 0x84#8, 0x39#8] = .ignore ∧
    classify Config.defaultParams false [0x01#8, 0x03#8, 0x40#8, 0x21#8] = .malformed .length := by decide +kernel

/-- V-WM-2 and V-WM-9: the byte count decides the length check, not the quantity. -/
theorem test_decode_writeMultiple_length :
    (decoded Config.defaultParams (.frame
      [0x01#8, 0x10#8, 0x01#8, 0x00#8, 0x00#8, 0x02#8, 0x03#8, 0x00#8, 0x01#8, 0x00#8, 0x55#8, 0xDA#8])).isSome = true ∧
    classify Config.defaultParams false
      [0x01#8, 0x10#8, 0x01#8, 0x00#8, 0x00#8, 0x02#8, 0x04#8, 0x00#8, 0x01#8, 0x97#8, 0x15#8]
      = .malformed .length := by decide +kernel

/-- The rows of spec/opcode_table.json that the table's numbers tell apart (log 15). -/
theorem test_table_words :
    decodeTableWord 8 0x03 = some (.readHolding 0x01#8 0#16 0#16) ∧
    decodeTableWord 8 0x06 = some (.writeSingle 0x01#8 0#16 0#16) ∧
    decodeTableWord 8 0x10 = some (.writeMultiple 0x01#8 0#16 0#16 0#8 []) ∧
    decodeTableWord 0 0 = some (.illegalFunction 0x01#8 0#8) ∧
    ([0, 1, 2, 4, 5, 7, 8, 9, 10, 11, 12].map (decodeTableWord 8)) =
      [some .reset, some (.rxByte 0#8), some .rxGap, some .service, some .tick, some .estopSet, some .estopClear,
       some .statsClear, some .crcInit, some (.crcUpdate 0#8), some (.reservedEvent 0xC#4)] := by decide +kernel

/-- The very next step after placing a table word runs its instruction: V-WS-17's write of GLOBAL_ESTOP, whose bytes
stand above the function byte, and TICK. -/
theorem test_withFetchWord :
    answer (State.reset.withFetchWord 40 0x0100110006)
      = some ([0x01#8, 0x06#8, 0x00#8, 0x11#8, 0x00#8, 0x01#8, 0x18#8, 0x0F#8], [(0x0011, 1#16)], true) ∧
    nextOf (step ({ State.reset with now := 7#32 }.withFetchWord 8 0x05))
      = some { State.reset with now := 7#32, lastTickMs := 7#32 } := by decide +kernel

/-! ## One step of each instruction -/

/-- V-RD-9: a read across the SS and GC blocks, unassigned offsets included. -/
theorem test_readHolding_crosses_blocks :
    answer (withFrame [0x01#8, 0x03#8, 0x00#8, 0x0E#8, 0x00#8, 0x03#8, 0x64#8, 0x08#8]
        { State.reset with reg := [(0x0E, 0xAAAA#16), (0x0F, 0xBBBB#16), (0x10, 1#16)] })
      = some ([0x01#8, 0x03#8, 0x06#8, 0xAA#8, 0xAA#8, 0xBB#8, 0xBB#8, 0x00#8, 0x01#8, 0xB4#8, 0x66#8],
        [(0x0E, 0xAAAA#16), (0x0F, 0xBBBB#16), (0x10, 1#16)], false) := by decide +kernel

/-- V-RD-7 and V-RD-4: a range past 0xFFFF does not wrap, and a quantity of 126 is refused first. -/
theorem test_readHolding_exceptions :
    answer (withFrame [0x01#8, 0x03#8, 0xFF#8, 0xFF#8, 0x00#8, 0x02#8, 0xC4#8, 0x2F#8] State.reset)
      = some ([0x01#8, 0x83#8, 0x02#8, 0xC0#8, 0xF1#8], [], false) ∧
    answer (withFrame [0x01#8, 0x03#8, 0x00#8, 0x00#8, 0x00#8, 0x7E#8, 0xC5#8, 0xEA#8] State.reset)
      = some ([0x01#8, 0x83#8, 0x03#8, 0x01#8, 0x31#8], [], false) := by decide +kernel

/-- V-WS-1, V-WS-6 and V-WS-7: an echo, a value out of range and a read-only address. -/
theorem test_writeSingle :
    answer (withFrame writeFrame State.reset) = some (writeFrame, [(0x0101, 0x32#16)], false) ∧
    answer (withFrame [0x01#8, 0x06#8, 0x01#8, 0x01#8, 0x00#8, 0x65#8, 0x19#8, 0xDD#8] State.reset)
      = some ([0x01#8, 0x86#8, 0x03#8, 0x02#8, 0x61#8], [], false) ∧
    answer (withFrame [0x01#8, 0x06#8, 0x00#8, 0x05#8, 0x00#8, 0x00#8, 0x99#8, 0xCB#8] State.reset)
      = some ([0x01#8, 0x86#8, 0x02#8, 0xC3#8, 0xA1#8], [], false) := by
  refine ⟨?_, ?_, ?_⟩ <;> decide +kernel

/-- V-WS-18 and V-WS-19: clearing GLOBAL_ESTOP clears the latch only while `estop_in` is false; the word is stored. -/
theorem test_writeSingle_estop_clear :
    answer (withFrame [0x01#8, 0x06#8, 0x00#8, 0x11#8, 0x00#8, 0x00#8, 0xD9#8, 0xCF#8]
        { State.reset with estop := true, reg := [(0x11, 1#16)] })
      = some ([0x01#8, 0x06#8, 0x00#8, 0x11#8, 0x00#8, 0x00#8, 0xD9#8, 0xCF#8], [], false) ∧
    answer (withFrame [0x01#8, 0x06#8, 0x00#8, 0x11#8, 0x00#8, 0x00#8, 0xD9#8, 0xCF#8]
        { State.reset with estop := true, estopIn := true, reg := [(0x11, 1#16)] })
      = some ([0x01#8, 0x06#8, 0x00#8, 0x11#8, 0x00#8, 0x00#8, 0xD9#8, 0xCF#8], [], true) := by decide +kernel

/-- V-WM-1 and V-WM-7: every word stored, the response's own CRC; a GLOBAL_ESTOP word of 0 in the range. -/
theorem test_writeMultiple :
    answer (withFrame multiFrame State.reset)
      = some ([0x01#8, 0x10#8, 0x01#8, 0x00#8, 0x00#8, 0x02#8, 0x40#8, 0x34#8],
        [(0x0100, 1#16), (0x0101, 0x32#16)], false) ∧
    answer (withFrame [0x01#8, 0x10#8, 0x00#8, 0x10#8, 0x00#8, 0x03#8, 0x06#8, 0x00#8, 0x01#8, 0x00#8, 0x00#8, 0x00#8,
        0x32#8, 0x5B#8, 0x00#8] { State.reset with estop := true })
      = some ([0x01#8, 0x10#8, 0x00#8, 0x10#8, 0x00#8, 0x03#8, 0x81#8, 0xCD#8],
        [(0x10, 1#16), (0x12, 0x32#16)], false) := by decide +kernel

/-- V-WM-2, V-WM-3 and V-WM-4: count, value and range rejected, nothing written. -/
theorem test_writeMultiple_exceptions :
    answer (withFrame [0x01#8, 0x10#8, 0x01#8, 0x00#8, 0x00#8, 0x02#8, 0x03#8, 0x00#8, 0x01#8, 0x00#8, 0x55#8, 0xDA#8]
        State.reset) = some ([0x01#8, 0x90#8, 0x03#8, 0x0C#8, 0x01#8], [], false) ∧
    answer (withFrame [0x01#8, 0x10#8, 0x01#8, 0x01#8, 0x00#8, 0x02#8, 0x04#8, 0x00#8, 0x32#8, 0x00#8, 0x05#8, 0x5E#8,
        0x3F#8] State.reset) = some ([0x01#8, 0x90#8, 0x03#8, 0x0C#8, 0x01#8], [], false) ∧
    answer (withFrame [0x01#8, 0x10#8, 0x00#8, 0x0F#8, 0x00#8, 0x02#8, 0x04#8, 0x00#8, 0x01#8, 0x00#8, 0x01#8, 0x23#8,
        0xEF#8] State.reset) = some ([0x01#8, 0x90#8, 0x02#8, 0xCD#8, 0xC1#8], [], false) := by
  refine ⟨?_, ?_, ?_⟩ <;> decide +kernel

/-- V-IF-4 and the third corner case of R173: bit 7 of the function byte is set already. -/
theorem test_illegalFunction :
    answer (withFrame illegalFrame State.reset) = some ([0x01#8, 0x87#8, 0x01#8, 0x82#8, 0x30#8], [], false) ∧
    (nextOf (exec (.illegalFunction 0x01#8 0x83#8) (withFrame illegalFrame State.reset))).map (·.pstate)
      = some (.responding [0x01#8, 0x83#8, 0x01#8, 0x80#8, 0xF0#8]) := by decide +kernel

/-- V-RST-7 and V-RST-1: the latch is cleared, the GLOBAL_ESTOP word is kept, the timestamps take `now`. -/
theorem test_reset :
    nextOf (exec .reset { inState (.responding readFrame) with
        estop := true, reg := [(0x11, 1#16)], now := 100#32, crc := 0x1234#16, crcErrors := 3#16, fbuf := [1#8] })
      = some { State.reset with reg := [(0x11, 1#16)], now := 100#32, lastCommMs := 100#32, lastTickMs := 100#32 } := by
  decide

/-- V-RST-6: the block halts again while `init_ok` is false. -/
theorem test_reset_halts_again : nextOf (exec .reset (withQueue [⟨.gap, true⟩] halted)) = some halted := by
  decide

/-- V-FR-25, and V-FR-20 with a queue of one entry: the newest entry is marked. -/
theorem test_rxByte :
    nextOf (exec (.rxByte 0x01#8) State.reset) = some (withQueue [⟨.byte 0x01#8, false⟩] State.reset) ∧
    (nextOf (exec (.rxByte 0x02#8)
        { State.reset with cfg := { Config.defaultParams with rxqDepth := 1 }, rxq := [⟨.byte 0x01#8, false⟩] })).map
      (·.rxq) = some [⟨.byte 0x01#8, true⟩] := by decide

/-- R138's example, in HALTED (V-RST-5). -/
theorem test_rxGap :
    nextOf (exec .rxGap (withQueue [⟨.byte 0x01#8, false⟩] halted))
      = some (withQueue [⟨.byte 0x01#8, false⟩, ⟨.gap, false⟩] halted) := by decide

/-- R139's example. -/
theorem test_rxErr : nextOf (exec .rxErr State.reset) = some (withQueue [⟨.err, false⟩] State.reset) := by
  decide

/-- R186's example. -/
theorem test_service :
    nextOf (exec .service { State.reset with rxq := frameEntries readFrame, reg := [(0, 1#16)], now := 5#32 })
      = some { State.reset with
          reg := [(0, 1#16)], now := 5#32, lastCommMs := 5#32, requestsReceived := 1#16, responsesSent := 1#16
          tx := [[0x01#8, 0x03#8, 0x02#8, 0x00#8, 0x01#8, 0x79#8, 0x84#8]] } := by decide +kernel

/-- R186's example with its GAP appended in the middle of the event, after the eight bytes are taken: the same response
(R186: the two readings differ in no response). -/
theorem test_service_arrival :
    nextOf (exec .service { State.reset with
        rxq := readFrame.map (fun b => ⟨.byte b, false⟩), arrivals := [⟨8, .gap⟩], reg := [(0, 1#16)]
        now := 5#32 })
      = some { State.reset with
          reg := [(0, 1#16)], now := 5#32, lastCommMs := 5#32, requestsReceived := 1#16, responsesSent := 1#16
          tx := [[0x01#8, 0x03#8, 0x02#8, 0x00#8, 0x01#8, 0x79#8, 0x84#8]] } := by decide +kernel

/-- V-FR-22 and V-FR-3: a marked GAP poisons the next frame only; an ERR inside a frame poisons that frame. -/
theorem test_service_poison :
    (nextOf (exec .service { State.reset with
        reg := [(0, 1#16)], rxq := readFrame.map (fun b => ⟨.byte b, false⟩) ++ [⟨.gap, true⟩] })).map
      (fun t => (t.nextBad, t.tx, t.crcErrors))
      = some (true, [[0x01#8, 0x03#8, 0x02#8, 0x00#8, 0x01#8, 0x79#8, 0x84#8]], 0#16) ∧
    (nextOf (exec .service (withQueue
        ([⟨.byte 0x01#8, false⟩, ⟨.byte 0x03#8, false⟩, ⟨.err, false⟩] ++ frameEntries [0#8, 0#8, 0#8, 1#8, 0x84#8, 0x0A#8])
        State.reset))).map (fun t => (t.pstate, t.tx, t.crcErrors, t.requestsReceived)) = some (.idle, [], 1#16, 0#16) := by
  decide +kernel

/-- R201's example, and its refusal in HALTED (V-RST-4). -/
theorem test_tick :
    nextOf (exec .tick { State.reset with lastTickMs := 500#32, now := 1502#32 })
      = some { State.reset with lastTickMs := 1502#32, now := 1502#32 } ∧
    refusedOf (exec .tick halted) = some .halted := by decide

/-- V-MON-10: estop with units RUNNING, IDLE, RUNNING, FAULT. -/
theorem test_monEval_publishes :
    (nextOf (exec .monEval { State.reset with
        estop := true, unitState := #v[.running, .idle, .running, .fault] })).map (·.reg)
      = some [(0, 0x000A#16), (2, 2#16), (3, 5#16)] := by decide

/-- V-MON-7 and V-MON-8, across the wrap of the clock: 2000 ms is no fault, 2001 ms is, and the counter counts the
edge. The last tick is recent. -/
theorem test_monEval_ages :
    (nextOf (exec .monEval { State.reset with
        lastCommMs := 0xFFFFFF00#32, lastTickMs := 0x6D0#32, now := 0x6D0#32 })).map
      (fun t => (t.commFault, t.wdtFault, t.timeoutErrors, t.reg)) = some (false, false, 0#16, [(0, 1#16)]) ∧
    (nextOf (exec .monEval { State.reset with
        lastCommMs := 0xFFFFFF00#32, lastTickMs := 0x6D0#32, now := 0x6D1#32 })).map
      (fun t => (t.commFault, t.wdtFault, t.timeoutErrors, t.reg)) = some (true, false, 1#16, [(0, 4#16)]) := by
  refine ⟨?_, ?_⟩ <;> decide

/-- V-MON-12: `force_fault` at once. -/
theorem test_estopSet :
    (nextOf (exec .estopSet State.reset)).map (fun t => (t.estop, forceFault t, t.reg)) = some (true, true, []) := by
  decide

/-- V-MON-13 and R207's example. -/
theorem test_estopClear :
    (nextOf (exec .estopClear { State.reset with estop := true, estopIn := true })).map (·.estop) = some true ∧
    (nextOf (exec .estopClear { State.reset with estop := true })).map (·.estop) = some false := by decide

/-- V-MON-16: the counters go to 0, `comm_fault` stays. -/
theorem test_statsClear :
    nextOf (exec .statsClear { State.reset with
        crcErrors := 1#16, requestsReceived := 1#16, responsesSent := 1#16, timeoutErrors := 2#16, commFault := true })
      = some { State.reset with commFault := true } := by decide

/-- V-CRC-15. -/
theorem test_crcInit : nextOf (exec .crcInit { State.reset with crc := 0x1234#16 }) = some State.reset := by
  decide

/-- V-CRC-4 and V-CRC-16. -/
theorem test_crcUpdate :
    (nextOf (exec (.crcUpdate 0x01#8) State.reset)).map (·.crc) = some 0x807E#16 ∧
    refusedOf (exec (.crcUpdate 0x01#8) halted) = some .halted := by decide

/-- V-RST-9. -/
theorem test_reservedEvent : refusedOf (exec (.reservedEvent 0xC#4) State.reset) = some .reservedEvent := by decide

/-- V-CRC-6, V-CRC-8, V-CRC-11 and V-CRC-12. -/
theorem test_crc_functions :
    crc16 [0x31#8, 0x32#8, 0x33#8, 0x34#8, 0x35#8, 0x36#8, 0x37#8, 0x38#8, 0x39#8] = 0x4B37#16 ∧
    crcAppend [0x01#8, 0x03#8, 0x00#8, 0x00#8, 0x00#8, 0x0A#8]
      = [0x01#8, 0x03#8, 0x00#8, 0x00#8, 0x00#8, 0x0A#8, 0xC5#8, 0xCD#8] ∧
    crcOk [0x01#8, 0x03#8, 0x00#8, 0x00#8, 0x00#8, 0x01#8, 0x84#8, 0x0B#8] = false ∧
    crcOk [0x01#8, 0x03#8, 0x00#8, 0x00#8, 0x00#8, 0x01#8, 0x0A#8, 0x84#8] = false := by decide +kernel

/-- R97's `FRAME` of V-FR-1's bytes is `RAWFRAME` of the bytes with their CRC. -/
theorem test_frameScript :
    frameScript [0x01#8, 0x03#8, 0x00#8, 0x00#8, 0x00#8, 0x01#8] = rawFrameScript readFrame := by decide +kernel

/-- V-RST-3 and R209: `force_fault` in HALTED; R40's view of it. -/
theorem test_snapshot :
    forceFault halted = true ∧ (snapshot halted).pstate = 5 ∧
    (snapshot (withQueue (frameEntries readFrame) halted)).queued = 9 := by decide

/-! ## Witnesses: a concrete state and operands that meet the hypotheses of each obligation, clause by clause -/

/-- A state that is not in HALTED and one that is: the two clauses of every block event. -/
theorem witness_CrcInitSeedsTheRegister : State.reset.pstate ≠ .halted ∧ halted.pstate = .halted := by decide
theorem witness_CrcUpdateFoldsItsByte : State.reset.pstate ≠ .halted ∧ halted.pstate = .halted := by decide
theorem witness_TickStoresTheTime : State.reset.pstate ≠ .halted ∧ halted.pstate = .halted := by decide
theorem witness_EstopSetLatches :
    State.reset.pstate ≠ .halted ∧ halted.pstate = .halted ∧
    (let s : State := { State.reset with estopIn := true }; s.estopIn = true ∧ s.pstate ≠ .halted) := by decide
theorem witness_StatsClearZeroesTheCounters : State.reset.pstate ≠ .halted ∧ halted.pstate = .halted := by decide
theorem witness_EstopClearNeedsTheSignalAbsent :
    (State.reset.pstate ≠ .halted ∧ State.reset.estopIn = false) ∧
    (({ State.reset with estopIn := true } : State).pstate ≠ .halted) ∧ halted.pstate = .halted := by decide
theorem witness_MonEvalEvaluates : State.reset.pstate ≠ .halted := by decide
theorem witness_ServiceRunsUntilNoStepIsEnabled : (inState .validating).pstate ≠ .halted := by decide
theorem witness_EveryAcceptedFrameIsAnsweredOnce : State.reset.pstate ≠ .halted ∧ State.reset.txReady = true := by decide

/-- The shortest frame of the second clause, with and without a good CRC (crc16 of no bytes is 0xFFFF). -/
theorem witness_CrcResidueIsZeroExactlyWhenTheCheckHolds :
    2 ≤ [0xFF#8, 0xFF#8].length ∧ crcOk [0xFF#8, 0xFF#8] = true ∧ crcOk [0#8, 0#8] = false := by decide

theorem witness_OneCorruptedByteIsDetected :
    2 ≤ readFrame.length ∧ crcOk readFrame = true ∧ (0 < readFrame.length ∧ byteAt readFrame 0 ≠ 0#8) ∧
    7 < readFrame.length ∧ byteAt readFrame 7 ≠ 0x0B#8 := by decide +kernel

/-- Every shape of instruction, the longest Write Multiple frame and both ends of the reserved codes. -/
theorem witness_DecodeInvertsEncode :
    ([.readHolding 1#8 0xFFFF#16 0#16, .writeSingle 1#8 0#16 0xFFFF#16, .writeMultiple 1#8 0#16 0#16 0#8 [],
      .writeMultiple 1#8 0#16 0#16 247#8 (List.replicate 247 0xFF#8), .illegalFunction 1#8 0x83#8, .reset,
      .rxByte 0xFF#8, .rxGap, .rxErr, .service, .tick, .monEval, .estopSet, .estopClear, .statsClear, .crcInit,
      .crcUpdate 0#8, .reservedEvent 0xC#4, .reservedEvent 0xF#4] : List Instr).all
        (Instr.wellFormed Config.defaultParams) = true := by decide +kernel

theorem witness_EncodeInvertsDecodeOnNamedFunctions :
    (decoded Config.defaultParams (.frame readFrame) = some (.readHolding 1#8 0#16 1#16) ∧
      selectsNamed Config.defaultParams (byteAt readFrame 1) = true) ∧
    selectsNamed Config.defaultParams (byteAt writeFrame 1) = true ∧
    selectsNamed Config.defaultParams (byteAt multiFrame 1) = true := by decide +kernel

/-- Frames of exactly 8, 9 and 11 bytes, and the last value of a 13-byte frame. -/
theorem witness_OperandsAreHighByteFirst :
    8 ≤ readFrame.length ∧ 9 ≤ (readFrame ++ [0#8]).length ∧ 8 + 2 * 1 + 2 < multiFrame.length ∧
    2 ≤ [0xFF#8, 0xFF#8].length := by decide

theorem witness_QueueEntryCodingRoundTrips : (0x300#11).extractLsb' 8 2 = 3#2 ∧ (0x7FF#11).extractLsb' 8 2 = 3#2 := by
  decide

/-- Both ends of every range. -/
theorem witness_AddressClassesAreTheRanges :
    [0x0000, 0x000F, 0x0010, 0x001F, 0x0020, 0x00FF, 0x0100, 0x010F, 0x0110, 0x011F, 0x0120, 0x01FF, 0x0400, 0x040F,
      0x0410, 0x041F, 0x0420, 0xFFFF].map addrClass =
    [.ss, .ss, .gc, .gc, .unmapped, .unmapped, .uc 1, .uc 1, .us 1, .us 1, .unmapped, .unmapped, .uc 4, .uc 4, .us 4,
      .us 4, .unmapped, .unmapped] := by decide

theorem witness_WritableWordsAndLegalValuesOfTheDefaultMap :
    Config.defaultParams.fieldMap = Config.defaultFieldMap ∧
    [0x10, 0x12, 0x13, 0x400, 0x402, 0x403, 0x500].map (writable Config.defaultParams)
      = [true, true, false, true, true, false, false] ∧
    [19#16, 20#16, 100#16, 101#16].map (legal Config.defaultParams 0x401) = [false, true, true, false] := by decide

theorem witness_RegisterMapsThatReadAlikeAreEqual : Memory.wf [(0, 1#16), (0xFFFF, 2#16)] = true := by decide

theorem witness_FrontEndEventsAppendAtTheTail : State.reset.rxq.length < State.reset.cfg.rxqDepth := by decide

theorem witness_OverflowMarksTheNewestEntry :
    ∃ s : State, s.rxq = [⟨.gap, false⟩] ++ [⟨.byte 1#8, false⟩] ∧ s.cfg.rxqDepth = s.rxq.length :=
  ⟨{ State.reset with cfg := { Config.defaultParams with rxqDepth := 2 }, rxq := [⟨.gap, false⟩, ⟨.byte 1#8, false⟩] },
    by decide⟩

/-- Each clause's protocol state and entry; the two byte clauses at 255 and 256 bytes. -/
theorem witness_TakingAnEntryFollowsTheFramingRules :
    ∀ k ∈ [RxKind.byte 1#8, .gap, .err],
      (withQueue [⟨k, true⟩] (inState .idle)).pstate = .idle ∧
      (withQueue [⟨k, true⟩] (inState .idle)).rxq = ⟨k, true⟩ :: [] ∧
      (withQueue [⟨k, true⟩] { inState .receiving with fbuf := List.replicate 255 0#8 }).pstate = .receiving ∧
      (withQueue [⟨k, true⟩] { inState .receiving with fbuf := List.replicate 255 0#8 }).fbuf.length < 256 ∧
      256 ≤ (withQueue [⟨k, true⟩] { inState .receiving with fbuf := List.replicate 256 0#8 }).fbuf.length := by
  decide +kernel

/-- A frame for each clause: poisoned, of 3 bytes, with a wrong CRC, another slave's, and of a wrong length for 0x03 and
for 0x10. -/
theorem witness_ValidationDropsInOrder :
    (inState .validating).pstate = .validating ∧ [0x01#8, 0x03#8, 0x00#8].length < 4 ∧
    (4 ≤ illegalFrame.length ∧ crcOk [0x01#8, 0x07#8, 0x41#8, 0xE3#8] = false) ∧
    (crcOk [0x02#8, 0x03#8, 0x00#8, 0x00#8, 0x00#8, 0x01#8, 0x84#8, 0x39#8] = true ∧
      byteAt [0x02#8] 0 ≠ Config.defaultParams.slaveId) ∧
    (crcOk [0x01#8, 0x03#8, 0x40#8, 0x21#8] = true ∧ byteAt [0x01#8, 0x03#8, 0x40#8, 0x21#8] 1 = 0x03#8) ∧
    (crcOk [0x01#8, 0x10#8, 0x01#8, 0x00#8, 0x00#8, 0x02#8, 0x04#8, 0x00#8, 0x01#8, 0x97#8, 0x15#8] = true ∧
      Config.defaultParams.fc10Supported = true) := by decide +kernel

/-- Accepted frames of 4, 8 and 13 bytes. -/
theorem witness_AcceptedFrameBecomesTheRequest :
    ∀ f ∈ [illegalFrame, readFrame, multiFrame],
      4 ≤ f.length ∧ crcOk f = true ∧ byteAt f 0 = Config.defaultParams.slaveId ∧
      lengthOk Config.defaultParams f = true := by decide +kernel

theorem witness_BusyEngineTakesNoEntry :
    ∃ t : State, engineStep (inState .validating) = some t ∧ (inState .validating).pstate ≠ .idle ∧
      (inState .validating).pstate ≠ .receiving := ⟨_, rfl, by decide, by decide⟩

theorem witness_EngineTransitionsAreTheTable :
    (engineStep (withQueue [⟨.gap, false⟩] (inState .idle))).isSome = true ∧
    (engineStep (withQueue [⟨.gap, false⟩] (inState .receiving))).isSome = true ∧
    (engineStep (inState .validating)).isSome = true ∧
    (engineStep (inState (.responding readFrame))).isSome = true := by decide

/-- A request for each clause. -/
theorem witness_DispatchingRunsTheSelectedFunction :
    (∀ f ∈ [readFrame, writeFrame, multiFrame, illegalFrame],
      (withFrame f State.reset).pstate = .dispatching (parseRequest f)) ∧
    [readFrame, writeFrame, multiFrame, illegalFrame].map (fun f => (parseRequest f).fc)
      = [0x03#8, 0x06#8, 0x10#8, 0x07#8] ∧
    State.reset.cfg.fc10Supported = true ∧ selectsNamed State.reset.cfg 0x07#8 = false := by
  refine ⟨fun f _ => rfl, ?_⟩
  decide

/-- The last mapped word alone, and the longest mapped run of 32 words. -/
theorem witness_ReadHoldingAnswersTheWords :
    (withFrame readFrame State.reset).pstate = .dispatching (parseRequest readFrame) ∧
    (∀ j : Nat, j < (1#16).toNat → mapped ((0x041F#16).toNat + j) = true) ∧
    (∀ j : Nat, j < (32#16).toNat → mapped ((0x0400#16).toNat + j) = true) := by
  refine ⟨rfl, ?_⟩
  decide

/-- Quantities 0 and 126; a range past 0xFFFF; a range into 0x0120; the last mapped word. -/
theorem witness_ReadHoldingRejectsInOrder :
    (withFrame readFrame State.reset).pstate = .dispatching (parseRequest readFrame) ∧
    (0#16).toNat < 1 ∧ 125 < (126#16).toNat ∧ 0xFFFF < (0xFFFF#16).toNat + (2#16).toNat - 1 ∧
    mapped ((0x011F#16).toNat + 1) = false ∧
    (∀ j : Nat, j < (1#16).toNat → mapped ((0x041F#16).toNat + j) = true) := by
  refine ⟨rfl, ?_⟩
  decide

/-- GLOBAL_ESTOP with 1 and 0, and an amplitude at its limits. -/
theorem witness_WriteSingleStoresAndEchoes :
    (withFrame writeFrame State.reset).pstate = .dispatching (parseRequest writeFrame) ∧ State.reset.reg.wf = true ∧
    (writable State.reset.cfg 0x11 = true ∧ nameAt State.reset.cfg 0x11 = some .globalEstop ∧
      legal State.reset.cfg 0x11 0#16 = true ∧ legal State.reset.cfg 0x11 1#16 = true) ∧
    (writable State.reset.cfg 0x101 = true ∧ legal State.reset.cfg 0x101 20#16 = true ∧
      legal State.reset.cfg 0x101 100#16 = true) := by
  refine ⟨rfl, ?_⟩
  decide

theorem witness_WriteSingleRejectsInOrder :
    (withFrame writeFrame State.reset).pstate = .dispatching (parseRequest writeFrame) ∧
    writable State.reset.cfg 0x05 = false ∧
    (writable State.reset.cfg 0x101 = true ∧ legal State.reset.cfg 0x101 101#16 = false) ∧
    legal State.reset.cfg 0x101 100#16 = true := by
  refine ⟨rfl, ?_⟩
  decide

/-- The three writable words of the Global Control block, GLOBAL_ESTOP among them. -/
theorem witness_WriteMultipleStoresEveryWord :
    (withFrame multiFrame State.reset).pstate = .dispatching (parseRequest multiFrame) ∧
    paramsOk State.reset.cfg = true ∧ State.reset.reg.wf = true ∧ (6#8).toNat = 2 * (3#16).toNat ∧
    (∀ j : Nat, j < (3#16).toNat → writable State.reset.cfg ((0x10#16).toNat + j) = true ∧
      legal State.reset.cfg ((0x10#16).toNat + j)
        (be16 (byteAt [0#8, 1#8, 0#8, 1#8, 0#8, 20#8] (2 * j)) (byteAt [0#8, 1#8, 0#8, 1#8, 0#8, 20#8] (2 * j + 1)))
          = true) := by
  refine ⟨rfl, ?_⟩
  decide

/-- Quantity 0, quantity 124, a wrong byte count; then a range past 0xFFFF and a read-only word; then an illegal
value. -/
theorem witness_WriteMultipleRejectsInOrder :
    (withFrame multiFrame State.reset).pstate = .dispatching (parseRequest multiFrame) ∧
    ((0#16).toNat < 1 ∧ 123 < (124#16).toNat ∧ (3#8).toNat ≠ 2 * (2#16).toNat) ∧
    ((4#8).toNat = 2 * (2#16).toNat ∧ 0xFFFF < (0xFFFF#16).toNat + (2#16).toNat - 1 ∧
      writable State.reset.cfg ((0x0F#16).toNat + 0) = false) ∧
    (writable State.reset.cfg 0x101 = true ∧ writable State.reset.cfg 0x102 = true ∧
      legal State.reset.cfg 0x102 (be16 0#8 5#8) = false) ∧
    (legal State.reset.cfg 0x101 (be16 0#8 100#8) = true ∧ legal State.reset.cfg 0x102 (be16 0#8 1#8) = true) := by
  refine ⟨rfl, ?_⟩
  decide

theorem witness_IllegalFunctionAnswersExceptionOne :
    (withFrame illegalFrame State.reset).pstate = .dispatching (parseRequest illegalFrame) ∧
    selectsNamed Config.defaultParams (byteAt illegalFrame 1) = false ∧ 4 ≤ illegalFrame.length ∧
    crcOk illegalFrame = true ∧ byteAt illegalFrame 0 = Config.defaultParams.slaveId := by
  refine ⟨rfl, ?_⟩
  decide +kernel

theorem witness_FunctionCodesNeedDispatching :
    halted.pstate = .halted ∧ (inState .idle).pstate = .idle ∧ (inState .receiving).pstate = .receiving ∧
    (inState .validating).pstate = .validating ∧ (inState (.responding [])).pstate = .responding [] := by decide

theorem witness_OnlyLegalValuesAreEverWritten :
    State.reset.reg.wf = true ∧ Instr.service ≠ .monEval ∧ ∃ t : State, exec .service State.reset = .next t :=
  ⟨by decide, by decide, _, rfl⟩

theorem witness_RespondingHandsTheFrameOver :
    ((inState (.responding readFrame)).pstate = .responding readFrame ∧ (inState (.responding readFrame)).txReady = true) ∧
    ({ inState (.responding readFrame) with txReady := false } : State).pstate = .responding readFrame := by decide

theorem witness_ServiceFrame : ∃ t : State, exec .service State.reset = .next t := ⟨_, rfl⟩

/-- A frame for each of the three verdicts. -/
theorem witness_ServiceServesOneFrame :
    (let s := withQueue (frameEntries readFrame) State.reset
     s.pstate = .idle ∧ s.arrivals = [] ∧ s.txReady = true ∧ s.nextBad = false ∧ s.rxq = frameEntries readFrame) ∧
    readFrame ≠ [] ∧ readFrame.length ≤ 256 ∧
    classify Config.defaultParams false [0x01#8] = .malformed .short ∧
    classify Config.defaultParams false [0x02#8, 0x03#8, 0x00#8, 0x00#8, 0x00#8, 0x01#8, 0x84#8, 0x39#8] = .ignore ∧
    (decoded Config.defaultParams (.frame readFrame)).isSome = true := by decide +kernel

/-- A queue cut inside its frame. -/
theorem witness_ServiceMayBeCutAnywhere :
    State.reset.pstate ≠ .halted ∧ State.reset.arrivals = [] ∧ State.reset.txReady = true ∧
    (withQueue (frameEntries readFrame) State.reset).rxq
      = (frameEntries readFrame).take 3 ++ (frameEntries readFrame).drop 3 := by decide

theorem witness_ProtocolIgnoresTheSafetyState :
    forgetSafety State.reset = forgetSafety { State.reset with commFault := true, estop := true, estopIn := true } ∧
    State.reset.pstate ≠ .halted := by decide

theorem witness_CrcRegisterAndEngineAreIndependent :
    (Instr.service ≠ .crcInit ∧ (∀ b : Byte, Instr.service ≠ .crcUpdate b) ∧ Instr.service ≠ .reset) ∧
    (∃ t : State, exec .crcInit State.reset = .next t) ∧ ∃ t : State, exec (.crcUpdate 1#8) State.reset = .next t :=
  ⟨⟨by decide, by simp, by decide⟩, ⟨_, rfl⟩, _, rfl⟩

theorem witness_MonEvalPublishesTheStatusWords :
    State.reset.pstate ≠ .halted ∧ paramsOk State.reset.cfg = true ∧ State.reset.reg.wf = true := by decide

theorem witness_StatusWordBitByBit : State.reset.cfg.statusBits = Config.defaultStatusBits := by decide

theorem witness_PublishedStatusTellsForceFault :
    paramsOk State.reset.cfg = true ∧ State.reset.reg.wf = true ∧
    State.reset.cfg.statusBits = Config.defaultStatusBits ∧ addressOf State.reset.cfg .sysStatus = some 0 ∧
    (nextOf (exec .monEval State.reset)).isSome = true := by decide

/-- The last age before the wrap, and R205's own. -/
theorem witness_AgesAreExactAcrossTheWrap :
    2 ^ 32 - 1 < 2 ^ 32 ∧ (age (0xFFFFFF00#32 + BitVec.ofNat 32 2001) 0xFFFFFF00#32).toNat = 2001 := by decide

/-- A set latch cleared by each of the ways. -/
theorem witness_NothingElseClearsTheEstopLatch :
    (nextOf (exec .reset { State.reset with estop := true })).map (·.estop) = some false ∧
    (nextOf (exec .estopClear { State.reset with estop := true })).map (·.estop) = some false ∧
    (nextOf (exec .service { State.reset with
        estop := true
        rxq := frameEntries [0x01#8, 0x06#8, 0x00#8, 0x11#8, 0x00#8, 0x00#8, 0xD9#8, 0xCF#8] })).map (·.estop)
      = some false ∧
    (nextOf (exec (.writeSingle 1#8 0x11#16 0#16) (withFrame writeFrame { State.reset with estop := true }))).map
      (·.estop) = some false ∧
    (nextOf (exec (.writeMultiple 1#8 0x11#16 1#16 2#8 [0#8, 0#8])
      (withFrame multiFrame { State.reset with estop := true }))).map (·.estop) = some false := by
  refine ⟨?_, ?_, ?_, ?_, ?_⟩ <;> decide +kernel

/-- HALTED for each event, and room in its queue. -/
theorem witness_ReservedCodesAndHaltedRefuse : halted.pstate = .halted ∧ halted.rxq.length < halted.cfg.rxqDepth := by
  decide

theorem witness_HaltedIsLeftOnlyByReset :
    halted.pstate = .halted ∧ (nextOf (exec .rxGap halted)).isSome = true ∧ (nextOf (exec .reset halted)).isSome = true := by
  decide

/-- An event in the script (IDLE), and a frame accepted (DISPATCHING). -/
theorem witness_StepRunsTheDecodedInstruction :
    paramsOk State.reset.cfg = true ∧
    ({ State.reset with script := [.event 0x5#4 0#8] } : State).script = .event 0x5#4 0#8 :: [] ∧
    State.reset.pstate ≠ .validating ∧ (∀ r : Request, State.reset.pstate ≠ .dispatching r) ∧
    (withFrame multiFrame State.reset).pstate = .dispatching (parseRequest multiFrame) ∧
    (withFrame multiFrame State.reset).fbuf.length ≤ 256 ∧
    classify State.reset.cfg false multiFrame = .accept (parseRequest multiFrame) := by
  refine ⟨by decide +kernel, rfl, by decide, by simp [State.reset], rfl, by decide, by decide +kernel⟩

/-- One stimulus of each kind; the strobe with and without WDT_INDEPENDENT; a due arrival with room for one entry and with
none, and one that is not due, with and without an enabled engine step. -/
theorem witness_StepAppliesTheInputs :
    (∀ x ∈ [Stimulus.clock 1#32, .setEstopIn true, .setTxReady false, .setInitOk false, .outsideWrite 0xFFFF#16 1#16,
        .setUnit 3 .fault, .strobe, .scheduleArrival 0 .gap],
      ({ State.reset with script := [x] } : State).script = x :: []) ∧
    paramsOk State.reset.cfg = true ∧ State.reset.script = [] ∧ State.reset.cfg.wdtIndependent = true ∧
    paramsOk { Config.defaultParams with wdtIndependent := false } = true ∧
    State.reset.pstate ≠ .validating ∧ (∀ r : Request, State.reset.pstate ≠ .dispatching r) ∧
    (State.reset.pstate ≠ .halted ∧ (inState .validating).pstate ≠ .halted) ∧
    (withQueue (List.replicate 63 ⟨.gap, false⟩) State.reset).rxq.length < State.reset.cfg.rxqDepth ∧
    ((withQueue (List.replicate 64 ⟨.gap, false⟩) State.reset).rxq = List.replicate 63 ⟨.gap, false⟩ ++ [⟨.gap, false⟩] ∧
      State.reset.cfg.rxqDepth ≤ (withQueue (List.replicate 64 ⟨.gap, false⟩) State.reset).rxq.length) ∧
    (engineStep { inState .validating with arrivals := [⟨1, .gap⟩] }).isSome = true ∧
    engineStep { State.reset with arrivals := [⟨1, .gap⟩] } = none := by
  refine ⟨fun x _ => rfl, by decide, by decide, by decide, by decide +kernel, by decide, by simp [State.reset], ?_⟩
  decide +kernel

theorem witness_StepsStopOnlyWhereTheSpecSays :
    paramsOk { Config.defaultParams with rxqDepth := 0 } = false ∧ paramsOk Config.defaultParams = true ∧
    refusedOf (step { State.reset with script := [.event 0xC#4 0#8] }) = some .reservedEvent ∧
    refusedOf (step { halted with script := [.event 0x5#4 0#8] }) = some .halted := by decide

theorem witness_ParametersAreFixedForARun : (nextOf (step State.reset)).isSome = true := by decide

theorem witness_EveryStepKeepsTheInvariant :
    State.reset.inv = true ∧ (nextOf (step State.reset)).isSome = true ∧
    State.inv (withFrame multiFrame State.reset) = true ∧
    (nextOf (step (withFrame multiFrame State.reset))).isSome = true := by decide +kernel

end Sys2Proof.Tests
end

section
/-! Each change of an input, and an entry that arrives in the middle of a SERVICE (00_scope.md R7, R8). -/

namespace Sys2Proof.Machine

/-! ## What a step fetches and does outside a frame's validation and dispatch -/

/-- Outside a frame's validation and dispatch the machine takes the next stimulus (30_encoding.md R84, log 10). -/
theorem fetch_eq_fetchStimulus {s : State} (hv : s.pstate ≠ .validating)
    (hd : ∀ r : Request, s.pstate ≠ .dispatching r) : fetch s = fetchStimulus s := by
  unfold fetch
  cases h : s.pstate with
  | idle | receiving | responding | halted => rfl
  | validating => exact absurd h hv
  | dispatching r => exact absurd h (hd r)

theorem step_of_fetch_idle {s t : State} (hp : paramsOk s.cfg = true) (h : fetch s = .idle t) : step s = .next t := by
  simp only [step, hp, h, if_true]

theorem step_of_fetch_run {s t : State} {i : Instr} (hp : paramsOk s.cfg = true) (h : fetch s = .run i t) :
    step s = exec i t := by
  simp only [step, hp, h, if_true]

/-! ## The stimuli -/

/-- A stimulus that `applyInput` gives its whole effect: neither an event nor the strobe. -/
def Stimulus.isInput : Stimulus → Prop
  | .event _ _ | .strobe => False
  | .clock _ | .setEstopIn _ | .setTxReady _ | .setInitOk _ | .setUnit _ _ | .outsideWrite _ _
  | .scheduleArrival _ _ => True

theorem fetchStimulus_nil {s : State} (h : s.script = []) : fetchStimulus s = .idle s := by
  simp only [fetchStimulus, h]

/-- An input's change is taken from the script and has its effect alone (R7, R95). -/
theorem fetchStimulus_input {s : State} {x : Stimulus} {rest : List Stimulus} (h : s.script = x :: rest)
    (hx : x.isInput) : fetchStimulus s = .idle (applyInput x { s with script := rest }) := by
  cases x with
  | event | strobe => exact hx.elim
  | clock | setEstopIn | setTxReady | setInitOk | setUnit | outsideWrite | scheduleArrival =>
    simp only [fetchStimulus, h]

/-- The strobe issues MON_EVAL exactly when WDT_INDEPENDENT (43_monitor.md R202, log 18). -/
theorem fetchStimulus_strobe {s : State} {rest : List Stimulus} (h : s.script = .strobe :: rest) :
    fetchStimulus s =
      if s.cfg.wdtIndependent then .run .monEval { s with script := rest } else .idle { s with script := rest } := by
  simp only [fetchStimulus, h]

/-! ## The queue's newest entry and the entries that arrive in a SERVICE -/

theorem markNewest_append_singleton (q : List RxEntry) (e : RxEntry) :
    markNewest (q ++ [e]) = q ++ [{ e with lost := true }] := by
  induction q with
  | nil => rfl
  | cons a q ih =>
    cases q with
    | nil => rfl
    | cons b q => exact congrArg (a :: ·) ih

theorem pushEntry_room {depth : Nat} {q : List RxEntry} (k : RxKind) (h : q.length < depth) :
    pushEntry depth k q = q ++ [⟨k, false⟩] := if_pos h

/-- On a full queue a push marks the newest entry (R131). -/
theorem pushEntry_full {depth : Nat} {q : List RxEntry} {e : RxEntry} (k : RxKind) (h : depth ≤ (q ++ [e]).length) :
    pushEntry depth k (q ++ [e]) = q ++ [{ e with lost := true }] := by
  rw [pushEntry, if_neg (Nat.not_lt.mpr h), markNewest_append_singleton]

theorem takeArrival_due {s : State} {k : RxKind} {later : List Arrival} (h : s.arrivals = ⟨0, k⟩ :: later) :
    takeArrival s = some (rxPush k { s with arrivals := later }) := by
  simp only [takeArrival, h, if_true]

theorem takeArrival_notDue {s : State} {x : Arrival} {later : List Arrival} (h : s.arrivals = x :: later)
    (hx : 0 < x.after) : takeArrival s = none := by
  simp only [takeArrival, h, if_neg hx.ne']

theorem countArrivals_cons {s : State} {x : Arrival} {later : List Arrival} (h : s.arrivals = x :: later) :
    countArrivals s = { s with arrivals := ⟨x.after - 1, x.kind⟩ :: later } := by
  simp only [countArrivals, h]

theorem exec_service {s : State} (h : s.pstate ≠ .halted) : exec .service s = .next (serviceStep s) :=
  unlessHalted_next h

/-- A SERVICE that starts with a due entry goes on from the state with that entry pushed (R8, R186). -/
theorem exec_service_due {s : State} {k : RxKind} {later : List Arrival} (hh : s.pstate ≠ .halted)
    (h : s.arrivals = ⟨0, k⟩ :: later) : exec .service s = exec .service (rxPush k { s with arrivals := later }) := by
  rw [exec_service hh, serviceStep_arrival (takeArrival_due h), exec_service (by simpa using hh)]

/-- An engine step of a SERVICE brings the pending entry one step nearer (R186, log 9). -/
theorem exec_service_notDue {s t : State} {x : Arrival} {later : List Arrival} (hh : s.pstate ≠ .halted)
    (h : s.arrivals = x :: later) (hx : 0 < x.after) (ht : engineStep s = some t) :
    exec .service s = exec .service { t with arrivals := ⟨x.after - 1, x.kind⟩ :: later } := by
  obtain ⟨harr, hth⟩ := engineStep_arrivals ht
  rw [exec_service hh, serviceStep_engine (takeArrival_notDue h hx) ht, countArrivals_cons (harr.trans h),
    exec_service (by exact hth)]

/-! ## The obligation -/

/-- Settles O56: what `fetch` takes from the script decides the first half, and the unfolding of SERVICE's loop by one
arrival or one engine step the second. -/
theorem stepAppliesTheInputs : Obligations.StepAppliesTheInputs := by
  unfold Obligations.StepAppliesTheInputs
  constructor
  · intro s rest hp hv hd
    have hf := fetch_eq_fetchStimulus hv hd
    have input {x : Stimulus} (hx : x.isInput) (h : s.script = x :: rest) :
        step s = .next (applyInput x { s with script := rest }) :=
      step_of_fetch_idle hp (hf.trans (fetchStimulus_input h hx))
    refine ⟨fun h => step_of_fetch_idle hp (hf.trans (fetchStimulus_nil h)), fun _ => input trivial,
      fun _ => input trivial, fun _ => input trivial, fun _ => input trivial, fun _ _ => input trivial,
      fun n u h => ⟨_, input (x := .setUnit n u) trivial h, Vector.toList_set ..⟩, fun h hw => ?_, fun h hw => ?_,
      fun _ _ => input trivial⟩
    · exact step_of_fetch_run hp (by rw [hf, fetchStimulus_strobe h, if_pos hw])
    · exact step_of_fetch_idle hp (by rw [hf, fetchStimulus_strobe h, if_neg (by simp [hw])])
  · intro s n k later hh harr
    refine ⟨?_, ?_, fun t hn ht => exec_service_notDue hh harr hn ht, fun hn ht => ?_⟩
    · rintro rfl hroom
      rw [exec_service_due hh harr, rxPush, pushEntry_room k hroom]
    · rintro q e rfl hq hfull
      rw [exec_service_due hh harr, rxPush, hq, pushEntry_full k (hq ▸ hfull)]
    · rw [exec_service hh, serviceStep_done (takeArrival_notDue harr hn) ht]

end Sys2Proof.Machine
end

section
/-! The invariant of the block's states (10_state.md): it holds after reset, every operation keeps it, and so every step
does. -/

namespace Sys2Proof.Machine

/-! ## The invariant and the frame in progress, state by state -/

theorem State.inv_iff {s : State} :
    s.inv = true ↔ s.reg.wf = true ∧ s.fbuf.length ≤ Config.frameMax ∧ s.rxq.length ≤ s.cfg.rxqDepth ∧
      frameOk s = true := by
  simp only [State.inv, Bool.and_eq_true, decide_eq_true_eq, and_assoc]

theorem reg_wf_of_inv {s : State} (h : s.inv = true) : s.reg.wf = true := (State.inv_iff.mp h).1

theorem frameOk_idle {s : State} (hp : s.pstate = .idle) : frameOk s = true ↔ s.fbuf = [] ∧ s.curBad = false := by
  simp [frameOk, hp]

theorem frameOk_receiving {s : State} (hp : s.pstate = .receiving) : frameOk s = true := by
  simp only [frameOk, hp]

theorem frameOk_validating {s : State} (hp : s.pstate = .validating) : frameOk s = true := by
  simp only [frameOk, hp]

theorem frameOk_dispatching {s : State} {r : Request} (hp : s.pstate = .dispatching r) :
    frameOk s = true ↔ s.curBad = false ∧ classify s.cfg false s.fbuf = .accept r := by
  simp [frameOk, hp]

theorem frameOk_responding {s : State} {rbuf : List Byte} (hp : s.pstate = .responding rbuf) :
    frameOk s = true ↔
      s.curBad = false ∧ 5 ≤ rbuf.length ∧ rbuf.length ≤ Config.frameMax ∧ crcOk rbuf = true := by
  simp [frameOk, hp, and_assoc]

theorem frameOk_halted {s : State} (hp : s.pstate = .halted) :
    frameOk s = true ↔ s.fbuf = [] ∧ s.curBad = false ∧ s.nextBad = false := by
  simp [frameOk, hp, and_assoc]

/-- Replacing the register map by one in canonical form keeps the invariant. -/
theorem inv_setReg {s : State} {m : Memory} (h : s.inv = true) (hm : m.wf = true) :
    State.inv { s with reg := m } = true := by
  obtain ⟨-, hbuf, hq, hf⟩ := State.inv_iff.mp h
  exact State.inv_iff.mpr ⟨hm, hbuf, hq, hf⟩

/-! ## The named operations -/

/-- RESET establishes the invariant from any state whose register map is in canonical form (R41, R270). -/
theorem resetStep_inv {s : State} (h : s.reg.wf = true) : (resetStep s).inv = true := by
  refine State.inv_iff.mpr ⟨h, Nat.zero_le _, Nat.zero_le _, ?_⟩
  cases hi : s.initOk with
  | true => exact (frameOk_idle (by simp [hi])).mpr ⟨rfl, rfl⟩
  | false => exact (frameOk_halted (by simp [hi])).mpr ⟨rfl, rfl, rfl⟩

/-- A push keeps the queue within its depth: with no room left it only marks the newest entry (R130, R131). -/
theorem rxPush_inv {s : State} (k : RxKind) (h : s.inv = true) : (rxPush k s).inv = true := by
  obtain ⟨hreg, hbuf, hq, hf⟩ := State.inv_iff.mp h
  refine State.inv_iff.mpr ⟨hreg, hbuf, ?_, hf⟩
  rw [rxPush_rxq, rxPush_cfg, pushEntry_length]
  split <;> omega

/-- Taking the head of the queue keeps the invariant. -/
theorem inv_dequeue {s : State} {e : RxEntry} {rest : List RxEntry} (h : s.inv = true) (hs : s.rxq = e :: rest) :
    State.inv { s with rxq := rest } = true := by
  obtain ⟨hreg, hbuf, hq, hf⟩ := State.inv_iff.mp h
  rw [hs, List.length_cons] at hq
  exact State.inv_iff.mpr ⟨hreg, hbuf, Nat.le_of_succ_le hq, hf⟩

/-- The monitor publishes at addresses of the register map only, since `FIELD_MAP` lies in it (R62, R211). -/
theorem publish_inv {s : State} (hp : paramsOk s.cfg = true) (h : s.inv = true) : (publish s).inv = true := by
  refine inv_setReg h (memWrite_wf (reg_wf_of_inv h) fun p hmem => ?_)
  obtain ⟨n, -, hn⟩ := List.mem_filterMap.mp hmem
  obtain ⟨a, ha, rfl⟩ := Option.map_eq_some_iff.mp hn
  exact addressOf_le hp ha

/-- A stimulus that is no event keeps the invariant; an outside write names a u16 address (R50). -/
theorem applyInput_inv {s : State} (x : Stimulus) (h : s.inv = true) : (applyInput x s).inv = true := by
  cases x with
  | outsideWrite a v => exact inv_setReg h (Memory.wf_write (reg_wf_of_inv h) (Nat.le_of_lt_succ a.isLt) v)
  | event | strobe | clock | setEstopIn | setTxReady | setInitOk | setUnit | scheduleArrival => exact h

/-! ## The engine's steps -/

/-- A poisoned frame is never accepted (R140). -/
theorem classify_accept_not_poisoned {p : Params} {poisoned : Bool} {f : List Byte} {r : Request}
    (h : classify p poisoned f = .accept r) : poisoned = false := by
  cases poisoned with
  | false => rfl
  | true => simp [classify] at h

/-- IDLE takes an entry (R132, R134, R135): a frame that begins holds at most one byte. -/
theorem idle_take_inv {s : State} (e : RxEntry) (hp : s.pstate = .idle) (h : s.inv = true) :
    (applyLost e (takeInIdle e.kind s)).inv = true := by
  obtain ⟨hreg, hbuf, hq, hf⟩ := State.inv_iff.mp h
  rw [idle_take, State.inv_iff]
  cases e.kind with
  | byte b => exact ⟨hreg, by simp, hq, frameOk_receiving rfl⟩
  | gap => exact ⟨hreg, hbuf, hq, (frameOk_idle (by exact hp)).mpr ((frameOk_idle hp).mp hf)⟩
  | err => exact ⟨hreg, Nat.zero_le _, hq, frameOk_receiving rfl⟩

/-- RECEIVING takes an entry (R133 to R135): the buffer grows only while it is below FRAME_MAX. -/
theorem receiving_take_inv {s : State} (e : RxEntry) (hp : s.pstate = .receiving) (h : s.inv = true) :
    (applyLost e (takeInReceiving e.kind s)).inv = true := by
  obtain ⟨hreg, hbuf, hq, -⟩ := State.inv_iff.mp h
  rw [receiving_take, State.inv_iff]
  cases e.kind with
  | byte b =>
    refine ⟨hreg, ?_, hq, frameOk_receiving hp⟩
    by_cases hroom : s.fbuf.length < Config.frameMax
    · simp [hroom]
    · simpa [hroom] using hbuf
  | gap => exact ⟨hreg, hbuf, hq, frameOk_validating rfl⟩
  | err => exact ⟨hreg, hbuf, hq, frameOk_receiving hp⟩

/-- A drop empties the frame buffer; an accepted frame was not poisoned, so it passes validation again (R146 to R148). -/
theorem validateStep_inv {s : State} (h : s.inv = true) : (validateStep s).inv = true := by
  obtain ⟨hreg, hbuf, hq, -⟩ := State.inv_iff.mp h
  obtain ⟨-, -, hv⟩ | ⟨-, hv⟩ | ⟨r, hr, hv⟩ := validateStep_cases s <;> rw [hv, State.inv_iff]
  · exact ⟨hreg, Nat.zero_le _, hq, (frameOk_idle rfl).mpr ⟨rfl, rfl⟩⟩
  · exact ⟨hreg, Nat.zero_le _, hq, (frameOk_idle rfl).mpr ⟨rfl, rfl⟩⟩
  · rw [classify_accept_not_poisoned hr] at hr
    exact ⟨hreg, hbuf, hq, (frameOk_dispatching rfl).mpr ⟨rfl, hr⟩⟩

/-- A function code's step stores words of the register map only and leaves a response that fits a frame and carries its
CRC (R174, R179). -/
theorem functionStep_inv {i : Instr} {s : State} {r : Request}
    (hi : (∃ a st q, i = .readHolding a st q) ∨ (∃ a tg v, i = .writeSingle a tg v) ∨
      (∃ a st q b d, i = .writeMultiple a st q b d) ∨ ∃ a fc, i = .illegalFunction a fc)
    (hp : s.pstate = .dispatching r) (h : s.inv = true) : (functionStep i s).inv = true := by
  obtain ⟨hreg, hbuf, hq, hf⟩ := State.inv_iff.mp h
  obtain ⟨hcur, -⟩ := (frameOk_dispatching hp).mp hf
  obtain ⟨payload, exc, w, ht, hmin, hmax, -, hw⟩ := functionStep_shape hi (s := s) rfl
  have hlen := crcAppend_length payload
  have hframe : Config.frameMax = 256 := rfl
  have hresp := (frameOk_responding (emitResponse_pstate payload exc (storeWords w s))).mpr
    ⟨hcur, by omega, by omega, crcOk_crcAppend payload⟩
  rw [ht, State.inv_iff]
  exact ⟨memWrite_wf hreg fun x hx => (hw x hx).2.2, hbuf, hq, hresp⟩

/-- The RESPONDING step empties the frame buffer (R180). -/
theorem sendResponse_inv {s : State} {rbuf : List Byte} (hp : s.pstate = .responding rbuf) (h : s.inv = true) :
    (sendResponse rbuf s).inv = true := by
  obtain ⟨hreg, -, hq, hf⟩ := State.inv_iff.mp h
  obtain ⟨hcur, -⟩ := (frameOk_responding hp).mp hf
  exact State.inv_iff.mpr ⟨hreg, Nat.zero_le _, hq, (frameOk_idle rfl).mpr ⟨rfl, hcur⟩⟩

theorem engineStep_inv {s t : State} (h : s.inv = true) (ht : engineStep s = some t) : t.inv = true := by
  obtain ⟨hp, e, rest, hq, rfl⟩ | ⟨hp, e, rest, hq, rfl⟩ | ⟨-, rfl⟩ | ⟨r, hp, rfl⟩ | ⟨rbuf, hp, -, rfl⟩ :=
    engineStep_cases ht
  · exact idle_take_inv e hp (inv_dequeue h hq)
  · exact receiving_take_inv e hp (inv_dequeue h hq)
  · exact validateStep_inv h
  · exact functionStep_inv (selectFunction_is_function s.cfg r) hp h
  · exact sendResponse_inv hp h

/-! ## SERVICE -/

theorem takeArrival_inv {s t : State} (h : s.inv = true) (ht : takeArrival s = some t) : t.inv = true := by
  obtain ⟨x, rest, -, -, rfl⟩ := takeArrival_cases ht
  exact rxPush_inv (s := { s with arrivals := rest }) x.kind h

theorem countArrivals_inv {s : State} (h : s.inv = true) : (countArrivals s).inv = true := by
  unfold countArrivals
  split <;> exact h

/-- SERVICE keeps what every arrival and every engine step keep (R186). -/
theorem serviceStep_inv {s : State} (h : s.inv = true) : (serviceStep s).inv = true :=
  serviceLoop_keeps (P := fun s => s.inv = true) (fun _ _ => takeArrival_inv)
    (fun _ _ hs _ ht => countArrivals_inv (engineStep_inv hs ht)) _ s h

/-! ## Instructions and steps -/

/-- A block event keeps the invariant when its effect does. -/
theorem unlessHalted_inv {f : State → State} {s t : State} (hf : (f s).inv = true) (ht : unlessHalted f s = .next t) :
    t.inv = true := by
  obtain ⟨-, rfl⟩ := unlessHalted_cases ht
  exact hf

/-- A function code keeps the invariant when its step in DISPATCHING does. -/
theorem whenDispatching_inv {f : State → State} {s t : State}
    (hf : ∀ r : Request, s.pstate = .dispatching r → (f s).inv = true) (ht : whenDispatching f s = .next t) :
    t.inv = true := by
  obtain ⟨⟨r, hp⟩, rfl⟩ := whenDispatching_cases ht
  exact hf r hp

/-- Every instruction keeps the invariant, whether the machine fetched it or not. -/
theorem exec_inv {i : Instr} {s t : State} (hp : paramsOk s.cfg = true) (h : s.inv = true) (ht : exec i s = .next t) :
    t.inv = true := by
  cases i with
  | readHolding a st q => exact whenDispatching_inv (fun _ => (functionStep_inv (.inl ⟨a, st, q, rfl⟩) · h)) ht
  | writeSingle a tg v => exact whenDispatching_inv (fun _ => (functionStep_inv (.inr (.inl ⟨a, tg, v, rfl⟩)) · h)) ht
  | writeMultiple a st q b d =>
    exact whenDispatching_inv (fun _ => (functionStep_inv (.inr (.inr (.inl ⟨a, st, q, b, d, rfl⟩))) · h)) ht
  | illegalFunction a fc =>
    exact whenDispatching_inv (fun _ => (functionStep_inv (.inr (.inr (.inr ⟨a, fc, rfl⟩))) · h)) ht
  | reset => cases ht; exact resetStep_inv (reg_wf_of_inv h)
  | rxByte | rxGap | rxErr => cases ht; exact rxPush_inv _ h
  | service => exact unlessHalted_inv (serviceStep_inv h) ht
  | monEval => exact unlessHalted_inv (publish_inv (s := evaluate s) hp h) ht
  | tick | estopSet | estopClear | statsClear | crcInit | crcUpdate =>
    simp only [exec] at ht
    exact unlessHalted_inv (by exact h) ht
  | reservedEvent => cases ht

/-- What the next stimulus becomes: an instruction run, nothing, or an input's change (log 8). -/
theorem fetchStimulus_cases (s : State) :
    (∃ (i : Instr) (rest : List Stimulus), fetchStimulus s = .run i { s with script := rest }) ∨
    fetchStimulus s = .idle s ∨
    ∃ (x : Stimulus) (rest : List Stimulus), fetchStimulus s = .idle (applyInput x { s with script := rest }) := by
  cases hs : s.script with
  | nil => exact .inr (.inl (fetchStimulus_nil hs))
  | cons x rest =>
    cases x with
    | event code b => exact .inl ⟨decodePort code b, rest, by simp only [fetchStimulus, hs]⟩
    | strobe =>
      cases hw : s.cfg.wdtIndependent with
      | true => exact .inl ⟨.monEval, rest, by rw [fetchStimulus_strobe hs, if_pos hw]⟩
      | false => exact .inr (.inr ⟨.strobe, rest, by rw [fetchStimulus_strobe hs, hw]; rfl⟩)
    | clock | setEstopIn | setTxReady | setInitOk | setUnit | outsideWrite | scheduleArrival =>
      exact .inr (.inr ⟨_, rest, fetchStimulus_input hs trivial⟩)

/-- What the machine does next, in every protocol state: it changes nothing before that but the script (log 10). -/
theorem fetch_cases (s : State) :
    fetch s = .validate ∨ (∃ (i : Instr) (rest : List Stimulus), fetch s = .run i { s with script := rest }) ∨
    fetch s = .idle s ∨
    ∃ (x : Stimulus) (rest : List Stimulus), fetch s = .idle (applyInput x { s with script := rest }) := by
  by_cases hv : s.pstate = .validating
  · exact .inl (by simp only [fetch, hv])
  by_cases hd : ∃ r, s.pstate = .dispatching r
  · obtain ⟨r, hr⟩ := hd
    have hf : fetch s = .run (selectFunction s.cfg r) s := by simp only [fetch, hr]
    exact .inr (.inl ⟨_, s.script, hf⟩)
  · rw [fetch_eq_fetchStimulus hv (not_exists.mp hd)]
    exact .inr (fetchStimulus_cases s)

theorem step_of_fetch_validate {s : State} (hp : paramsOk s.cfg = true) (h : fetch s = .validate) :
    step s = .next (validateStep s) := by
  simp only [step, hp, h, if_true]

/-- A step that answers a state has parameters that meet their constraints (R256). -/
theorem paramsOk_of_step_next {s t : State} (h : step s = .next t) : paramsOk s.cfg = true := by
  by_contra hp
  rw [step, if_neg hp] at h
  cases h

/-! ## The obligations -/

/-- Settles O59: the instruction a step runs, the validation and the inputs each keep the invariant. -/
theorem everyStepKeepsTheInvariant : Obligations.EveryStepKeepsTheInvariant := by
  unfold Obligations.EveryStepKeepsTheInvariant
  intro s t h ht
  have hp := paramsOk_of_step_next ht
  obtain hf | ⟨i, rest, hf⟩ | hf | ⟨x, rest, hf⟩ := fetch_cases s
  · rw [step_of_fetch_validate hp hf] at ht
    cases ht
    exact validateStep_inv h
  · rw [step_of_fetch_run hp hf] at ht
    exact exec_inv (s := { s with script := rest }) hp h ht
  · rw [step_of_fetch_idle hp hf] at ht
    cases ht
    exact h
  · rw [step_of_fetch_idle hp hf] at ht
    cases ht
    exact applyInput_inv (s := { s with script := rest }) x h

/-- The state after reset is its own RESET, since it holds `init_ok` true (R41, R270). -/
theorem resetStep_reset : resetStep State.reset = State.reset := rfl

/-- Settles O52: each value is the definition's, and RESET leads back to the state. -/
theorem resetStateIsTheResetTable : Obligations.ResetStateIsTheResetTable := by
  unfold Obligations.ResetStateIsTheResetTable
  exact ⟨rfl, rfl, rfl, rfl, rfl, rfl, rfl, rfl, rfl, rfl, rfl, rfl, rfl, rfl, rfl,
    congrArg Host.Outcome.next resetStep_reset⟩

/-- Settles O60: the state is its own RESET, which establishes the invariant over the empty register map. -/
theorem resetMeetsTheInvariant : Obligations.ResetMeetsTheInvariant := by
  unfold Obligations.ResetMeetsTheInvariant
  rw [← resetStep_reset]
  exact resetStep_inv Memory.wf_nil

end Sys2Proof.Machine
end

section
/-! Which addresses the protocol may write, and with what (20_memory.md R60 to R63). -/

namespace Sys2Proof.Machine

/-! ## The address classes by their ranges -/

/-- The class of every address, with the range that gives it (R60). -/
theorem addrClass_cases (a : Nat) :
    (a ≤ 0x000F ∧ addrClass a = .ss) ∨
    (0x0010 ≤ a ∧ a ≤ 0x001F ∧ addrClass a = .gc) ∨
    (1 ≤ a / 256 ∧ a / 256 ≤ 4 ∧ a % 256 ≤ 0x0F ∧ addrClass a = .uc (a / 256)) ∨
    (1 ≤ a / 256 ∧ a / 256 ≤ 4 ∧ 0x10 ≤ a % 256 ∧ a % 256 ≤ 0x1F ∧ addrClass a = .us (a / 256)) ∨
    ((0x0020 ≤ a ∧ a < 0x0100 ∨ 0x0500 ≤ a ∨ 1 ≤ a / 256 ∧ a / 256 ≤ 4 ∧ 0x20 ≤ a % 256) ∧
      addrClass a = .unmapped) := by
  unfold addrClass
  simp only [Config.numUnits]
  split_ifs <;> simp <;> omega

theorem addrClass_eq_ss {a : Nat} : addrClass a = .ss ↔ a ≤ 0x000F := by
  rcases addrClass_cases a with h | h | h | h | h <;> grind

theorem addrClass_eq_gc {a : Nat} : addrClass a = .gc ↔ 0x0010 ≤ a ∧ a ≤ 0x001F := by
  rcases addrClass_cases a with h | h | h | h | h <;> grind

theorem addrClass_eq_uc {a n : Nat} :
    addrClass a = .uc n ↔ 1 ≤ n ∧ n ≤ 4 ∧ n <<< 8 ≤ a ∧ a ≤ n <<< 8 + 0x0F := by
  rw [Nat.shiftLeft_eq]
  rcases addrClass_cases a with h | h | h | h | h <;> grind

theorem addrClass_eq_us {a n : Nat} :
    addrClass a = .us n ↔ 1 ≤ n ∧ n ≤ 4 ∧ n <<< 8 + 0x10 ≤ a ∧ a ≤ n <<< 8 + 0x1F := by
  rw [Nat.shiftLeft_eq]
  rcases addrClass_cases a with h | h | h | h | h <;> grind

theorem addrClass_eq_unmapped {a : Nat} (ha : a ≤ 0xFFFF) :
    addrClass a = .unmapped ↔
      (0x0020 ≤ a ∧ a ≤ 0x00FF) ∨ (0x0120 ≤ a ∧ a ≤ 0x01FF) ∨ (0x0220 ≤ a ∧ a ≤ 0x02FF) ∨
      (0x0320 ≤ a ∧ a ≤ 0x03FF) ∨ (0x0420 ≤ a ∧ a ≤ 0xFFFF) := by
  rcases addrClass_cases a with h | h | h | h | h <;> grind

theorem mapped_iff {a : Nat} : mapped a = true ↔ addrClass a ≠ .unmapped := bne_iff_ne

/-- Settles O12: each class by its range, from the one case analysis of the address. -/
theorem addressClassesAreTheRanges : Obligations.AddressClassesAreTheRanges := by
  unfold Obligations.AddressClassesAreTheRanges
  refine ⟨fun a ha => ⟨addrClass_eq_ss, addrClass_eq_gc, fun _ => addrClass_eq_uc, fun _ => addrClass_eq_us,
    addrClass_eq_unmapped ha, mapped_iff⟩, rfl, rfl, fun _ => ⟨rfl, rfl⟩⟩

/-! ## The fields of a map, by membership -/

theorem writable_iff {p : Params} {a : Nat} :
    writable p a = true ↔ (mapped a = true ∧ access (addrClass a) = .rw) ∧ kindAt p a ≠ .unassigned := by
  simp only [writable, Bool.and_eq_true, beq_iff_eq, bne_iff_ne]

/-- The values each kind of field takes (R63). -/
theorem legal_iff {p : Params} {a : Nat} {v : Word} :
    legal p a v = true ↔
      (kindAt p a = .bool ∧ (v = 0#16 ∨ v = 1#16)) ∨ (kindAt p a = .ampl ∧ 20 ≤ v.toNat ∧ v.toNat ≤ 100) := by
  unfold legal
  cases kindAt p a <;> simp

/-- A map that assigns each address at most once finds exactly its own entries (R62, log 19). -/
theorem fieldAt_eq_some {m : List FieldEntry} (hm : (m.map (·.addr)).Nodup) {a : Nat} {e : FieldEntry} :
    fieldAt m a = some e ↔ e ∈ m ∧ e.addr = a := by
  constructor
  · intro h
    exact ⟨List.mem_of_find?_eq_some h, by simpa using List.find?_some h⟩
  · rintro ⟨he, rfl⟩
    obtain ⟨f, hf⟩ := Option.isSome_iff_exists.mp
      (List.find?_isSome (p := fun f : FieldEntry => f.addr == e.addr).mpr ⟨e, he, beq_self_eq_true _⟩)
    have hfe : f.addr = e.addr := by simpa using List.find?_some hf
    rw [fieldAt, hf, List.inj_on_of_nodup_map hm (List.mem_of_find?_eq_some hf) he hfe]

/-- The kind of an assigned address is its entry's (R62). -/
theorem kindAt_eq_iff {p : Params} (hm : (p.fieldMap.map (·.addr)).Nodup) {a : Nat} {k : FieldKind}
    (hk : k ≠ .unassigned) : kindAt p a = k ↔ ∃ e ∈ p.fieldMap, e.addr = a ∧ e.kind = k := by
  have hf := fun e => fieldAt_eq_some hm (a := a) (e := e)
  unfold kindAt
  cases h : fieldAt p.fieldMap a with
  | none =>
    simp only [h, reduceCtorEq, false_iff, not_and] at hf
    exact ⟨fun h => absurd h.symm hk, fun ⟨e, he, hea, _⟩ => absurd hea (hf e he)⟩
  | some e =>
    obtain ⟨he, hea⟩ := (hf e).mp h
    refine ⟨fun hek => ⟨e, he, hea, hek⟩, fun ⟨f, hfm, hfa, hfk⟩ => ?_⟩
    obtain rfl : e = f := by simpa [h] using (hf f).mpr ⟨hfm, hfa⟩
    exact hfk

/-! ## The default `FIELD_MAP` -/

/-- The default map assigns each address once (R62). -/
theorem defaultFieldMap_nodup : (Config.defaultFieldMap.map (·.addr)).Nodup := by decide

/-- The default map's entries: the global ones and those of the four units (R62). -/
theorem mem_defaultFieldMap {e : FieldEntry} :
    e ∈ Config.defaultFieldMap ↔ e ∈ Config.globalFields ∨ ∃ n, 1 ≤ n ∧ n ≤ 4 ∧ e ∈ Config.unitFields n := by
  simp only [Config.defaultFieldMap, List.mem_append, List.mem_flatMap, List.mem_range]
  refine or_congr_right ⟨fun ⟨i, hi, he⟩ => ⟨i + 1, by omega, hi, he⟩, fun ⟨n, h1, h4, he⟩ => ?_⟩
  obtain ⟨i, rfl⟩ := Nat.exists_eq_add_of_le' h1
  exact ⟨i, h4, he⟩

/-- Exactly the controls and setpoints of the default map lie at read-write addresses (R60, R62). -/
theorem defaultFieldMap_access :
    ∀ e ∈ Config.defaultFieldMap,
      (mapped e.addr = true ∧ access (addrClass e.addr) = .rw) ↔ (e.kind = .bool ∨ e.kind = .ampl) := by decide

section DefaultMap

variable {p : Params} {a : Nat} (hp : p.fieldMap = Config.defaultFieldMap)
include hp

theorem kindAt_default_iff {k : FieldKind} (hk : k ≠ .unassigned) :
    kindAt p a = k ↔
      (∃ e ∈ Config.globalFields, e.addr = a ∧ e.kind = k) ∨
        ∃ n, 1 ≤ n ∧ n ≤ 4 ∧ ∃ e ∈ Config.unitFields n, e.addr = a ∧ e.kind = k := by
  rw [kindAt_eq_iff (hp ▸ defaultFieldMap_nodup) hk, hp]
  simp only [mem_defaultFieldMap]
  constructor
  · rintro ⟨e, he | ⟨n, h1, h4, he⟩, hek⟩
    · exact .inl ⟨e, he, hek⟩
    · exact .inr ⟨n, h1, h4, e, he, hek⟩
  · rintro (⟨e, he, hek⟩ | ⟨n, h1, h4, e, he, hek⟩)
    · exact ⟨e, .inl he, hek⟩
    · exact ⟨e, .inr ⟨n, h1, h4, he⟩, hek⟩

/-- The boolean controls of the default map (R62). -/
theorem kindAt_default_bool :
    kindAt p a = .bool ↔
      (a = 0x10 ∨ a = 0x11) ∨ ∃ n : Nat, 1 ≤ n ∧ n ≤ 4 ∧ (a = n * 256 ∨ a = n * 256 + 2) := by
  rw [kindAt_default_iff hp (by decide)]
  simp [Config.globalFields, Config.unitFields, eq_comm]

/-- The amplitude setpoints of the default map (R62). -/
theorem kindAt_default_ampl :
    kindAt p a = .ampl ↔ a = 0x12 ∨ ∃ n : Nat, 1 ≤ n ∧ n ≤ 4 ∧ a = n * 256 + 1 := by
  rw [kindAt_default_iff hp (by decide)]
  simp [Config.globalFields, Config.unitFields, eq_comm]

/-- The words of the default map that the protocol may write are its controls and setpoints (R62, R63). -/
theorem writable_default_iff_kind : writable p a = true ↔ kindAt p a = .bool ∨ kindAt p a = .ampl := by
  rw [writable_iff]
  by_cases hk : kindAt p a = .unassigned
  · simp [hk]
  obtain ⟨e, he, rfl, hek⟩ := (kindAt_eq_iff (hp ▸ defaultFieldMap_nodup) hk).mp rfl
  rw [← hek, ← defaultFieldMap_access e (hp ▸ he), hek, and_iff_left hk]

end DefaultMap

/-- Settles O13: the words that can be written are the fields of kinds BOOL and AMPL, and the kind decides the legal
values. -/
theorem writableWordsAndLegalValuesOfTheDefaultMap : Obligations.WritableWordsAndLegalValuesOfTheDefaultMap := by
  unfold Obligations.WritableWordsAndLegalValuesOfTheDefaultMap
  intro p a v hp
  rw [writable_default_iff_kind hp, ← kindAt_default_ampl hp, legal_iff]
  constructor
  · rw [kindAt_default_bool hp, kindAt_default_ampl hp]
    simp only [and_or_left, exists_or, or_assoc, or_left_comm, or_comm]
  · cases kindAt p a <;> simp

end Sys2Proof.Machine
end

section
/-! What no step changes, the parameters, and what it may change in the register map: writable words, which take legal
values (20_memory.md R63, R64, R77). -/

namespace Sys2Proof.Machine

/-! ## The parameters and `tx_ready` through the engine -/

/-- Validation changes neither the parameters, `tx_ready` nor the register map. -/
theorem validateStep_frame (s : State) :
    (validateStep s).cfg = s.cfg ∧ (validateStep s).txReady = s.txReady ∧ (validateStep s).reg = s.reg := by
  obtain ⟨_, -, hv⟩ | ⟨-, hv⟩ | ⟨_, -, hv⟩ := validateStep_cases s <;> rw [hv] <;> exact ⟨rfl, rfl, rfl⟩

/-- A function code's step changes neither the parameters nor `tx_ready`. -/
theorem functionStep_frame {i : Instr} {s : State}
    (hi : (∃ a st q, i = .readHolding a st q) ∨ (∃ a tg v, i = .writeSingle a tg v) ∨
      (∃ a st q b d, i = .writeMultiple a st q b d) ∨ ∃ a fc, i = .illegalFunction a fc) :
    (functionStep i s).cfg = s.cfg ∧ (functionStep i s).txReady = s.txReady := by
  obtain ⟨payload, exc, w, hf, -⟩ := functionStep_shape hi (s := s) rfl
  rw [hf]
  exact ⟨rfl, rfl⟩

/-- What an engine step does to the parameters, `tx_ready` and the register map: it leaves them alone, or it is
DISPATCHING's. -/
theorem engineStep_dispatches_or_frame {s t : State} (h : engineStep s = some t) :
    (∃ r : Request, t = functionStep (selectFunction s.cfg r) s) ∨
    (t.cfg = s.cfg ∧ t.txReady = s.txReady ∧ t.reg = s.reg) := by
  obtain ⟨-, e, rest, -, rfl⟩ | ⟨-, e, rest, -, rfl⟩ | ⟨-, rfl⟩ | ⟨r, -, rfl⟩ | ⟨rbuf, -, -, rfl⟩ := engineStep_cases h
  · rw [idle_take]
    cases e.kind <;> exact .inr ⟨rfl, rfl, rfl⟩
  · rw [receiving_take]
    cases e.kind <;> exact .inr ⟨rfl, rfl, rfl⟩
  · exact .inr (validateStep_frame s)
  · exact .inl ⟨r, rfl⟩
  · exact .inr ⟨rfl, rfl, rfl⟩

/-- No engine step changes the parameters or the input `tx_ready` (R37, R77). -/
theorem engineStep_frame {s t : State} (h : engineStep s = some t) : t.cfg = s.cfg ∧ t.txReady = s.txReady := by
  obtain ⟨r, rfl⟩ | ⟨hcfg, hready, -⟩ := engineStep_dispatches_or_frame h
  · exact functionStep_frame (selectFunction_is_function s.cfg r)
  · exact ⟨hcfg, hready⟩

/-- An arrival changes neither the parameters nor the register map. -/
theorem takeArrival_frame {s t : State} (h : takeArrival s = some t) : t.cfg = s.cfg ∧ t.reg = s.reg := by
  obtain ⟨x, rest, -, -, rfl⟩ := takeArrival_cases h
  exact ⟨rfl, rfl⟩

theorem countArrivals_frame (s : State) : (countArrivals s).cfg = s.cfg ∧ (countArrivals s).reg = s.reg := by
  unfold countArrivals
  split <;> exact ⟨rfl, rfl⟩

/-! ## Register maps that differ in legal writes alone -/

/-- A canonical register map reached from another by legal writes to writable words: each word keeps its value or is
writable and holds a legal one (R63, R64). -/
def LegalWrites (p : Params) (m m' : Memory) : Prop :=
  m'.wf = true ∧ ∀ a : Nat, m'.read a = m.read a ∨ (writable p a = true ∧ legal p a (m'.read a) = true)

theorem LegalWrites.refl {p : Params} {m : Memory} (hm : m.wf = true) : LegalWrites p m m := ⟨hm, fun _ => .inl rfl⟩

theorem LegalWrites.trans {p : Params} {m m' m'' : Memory} (h : LegalWrites p m m') (h' : LegalWrites p m' m'') :
    LegalWrites p m m'' := by
  refine ⟨h'.1, fun a => ?_⟩
  obtain heq | hlegal := h'.2 a
  · rw [heq]
    exact h.2 a
  · exact .inr hlegal

/-- `MemWrite` of writable words with legal values at distinct addresses. -/
theorem memWrite_legalWrites {p : Params} {m : Memory} {w : List (Nat × Word)} (hm : m.wf = true)
    (hd : (w.map Prod.fst).Nodup)
    (hw : ∀ x ∈ w, writable p x.1 = true ∧ legal p x.1 x.2 = true ∧ x.1 ≤ Config.lastAddress) :
    LegalWrites p m (memWrite m w) := by
  have hle : ∀ x ∈ w, x.1 ≤ Config.lastAddress := fun x hx => (hw x hx).2.2
  refine ⟨memWrite_wf hm hle, fun a => ?_⟩
  by_cases ha : ∃ x ∈ w, x.1 = a
  · obtain ⟨x, hx, rfl⟩ := ha
    obtain ⟨hwr, hlegal, -⟩ := hw x hx
    rw [memWrite_read_mem hm hle hd hx]
    exact .inr ⟨hwr, hlegal⟩
  · exact .inl (memWrite_read_other hm hle fun x hx hxa => ha ⟨x, hx, hxa⟩)

/-- A function code's step writes only legal values, all of them to writable words (R165, R170). -/
theorem functionStep_legalWrites {i : Instr} {s : State}
    (hi : (∃ a st q, i = .readHolding a st q) ∨ (∃ a tg v, i = .writeSingle a tg v) ∨
      (∃ a st q b d, i = .writeMultiple a st q b d) ∨ ∃ a fc, i = .illegalFunction a fc)
    (hreg : s.reg.wf = true) : LegalWrites s.cfg s.reg (functionStep i s).reg := by
  obtain ⟨payload, exc, w, ht, -, -, hd, hw⟩ := functionStep_shape hi (s := s) rfl
  rw [ht]
  exact memWrite_legalWrites hreg hd hw

/-- Of the engine's steps DISPATCHING's alone writes the register map. -/
theorem engineStep_legalWrites {s t : State} (hreg : s.reg.wf = true) (h : engineStep s = some t) :
    LegalWrites s.cfg s.reg t.reg := by
  obtain ⟨r, rfl⟩ | ⟨-, -, hr⟩ := engineStep_dispatches_or_frame h
  · exact functionStep_legalWrites (selectFunction_is_function s.cfg r) hreg
  · rw [hr]
    exact .refl hreg

/-! ## SERVICE -/

theorem serviceStep_cfg (s : State) : (serviceStep s).cfg = s.cfg :=
  serviceLoop_keeps (P := fun t => t.cfg = s.cfg) (fun _ _ hs ht => (takeArrival_frame ht).1.trans hs)
    (fun _ t hs _ ht => (countArrivals_frame t).1.trans ((engineStep_frame ht).1.trans hs)) _ s rfl

/-- A SERVICE writes only legal values, however many requests it serves and whatever arrives meanwhile. -/
theorem serviceStep_legalWrites {s : State} (hreg : s.reg.wf = true) :
    LegalWrites s.cfg s.reg (serviceStep s).reg := by
  refine (serviceLoop_keeps (P := fun t => t.cfg = s.cfg ∧ LegalWrites s.cfg s.reg t.reg) ?_ ?_ _ s
    ⟨rfl, .refl hreg⟩).2
  · rintro u t ⟨hcfg, hw⟩ ht
    obtain ⟨hc, hr⟩ := takeArrival_frame ht
    exact ⟨hc.trans hcfg, hr ▸ hw⟩
  · rintro u t ⟨hcfg, hw⟩ - ht
    obtain ⟨hc, hr⟩ := countArrivals_frame t
    refine ⟨hc.trans ((engineStep_frame ht).1.trans hcfg), ?_⟩
    rw [hr]
    exact hw.trans (hcfg ▸ engineStep_legalWrites hw.1 ht)

/-! ## Every instruction -/

/-- Everything an instruction can do to the parameters and the register map: a function code runs its step, SERVICE its
loop, MON_EVAL evaluates and publishes, and every other event leaves both alone. -/
theorem exec_cfg_reg_cases {i : Instr} {s t : State} (h : exec i s = .next t) :
    (((∃ a st q, i = .readHolding a st q) ∨ (∃ a tg v, i = .writeSingle a tg v) ∨
      (∃ a st q b d, i = .writeMultiple a st q b d) ∨ ∃ a fc, i = .illegalFunction a fc) ∧ t = functionStep i s) ∨
    (i = .service ∧ t = serviceStep s) ∨ (i = .monEval ∧ t = publish (evaluate s)) ∨
    (t.cfg = s.cfg ∧ t.reg = s.reg) := by
  cases i with
  | readHolding a st q => exact .inl ⟨.inl ⟨a, st, q, rfl⟩, (whenDispatching_cases h).2⟩
  | writeSingle a tg v => exact .inl ⟨.inr (.inl ⟨a, tg, v, rfl⟩), (whenDispatching_cases h).2⟩
  | writeMultiple a st q b d => exact .inl ⟨.inr (.inr (.inl ⟨a, st, q, b, d, rfl⟩)), (whenDispatching_cases h).2⟩
  | illegalFunction a fc => exact .inl ⟨.inr (.inr (.inr ⟨a, fc, rfl⟩)), (whenDispatching_cases h).2⟩
  | service => exact .inr (.inl ⟨rfl, (unlessHalted_cases h).2⟩)
  | monEval => exact .inr (.inr (.inl ⟨rfl, (unlessHalted_cases (f := fun s => publish (evaluate s)) h).2⟩))
  | reset | rxByte | rxGap | rxErr =>
    cases h
    exact .inr (.inr (.inr ⟨rfl, rfl⟩))
  | tick | estopSet | estopClear | statsClear | crcInit | crcUpdate =>
    simp only [exec] at h
    obtain ⟨-, rfl⟩ := unlessHalted_cases h
    exact .inr (.inr (.inr ⟨rfl, rfl⟩))
  | reservedEvent => cases h

/-- No instruction changes a parameter (R77). -/
theorem exec_cfg {i : Instr} {s t : State} (h : exec i s = .next t) : t.cfg = s.cfg := by
  obtain ⟨hi, rfl⟩ | ⟨-, rfl⟩ | ⟨-, rfl⟩ | ⟨hcfg, -⟩ := exec_cfg_reg_cases h
  · exact (functionStep_frame hi).1
  · exact serviceStep_cfg s
  · rfl
  · exact hcfg

theorem applyInput_cfg (x : Stimulus) (s : State) : (applyInput x s).cfg = s.cfg := by
  cases x <;> rfl

/-! ## The obligations -/

/-- Settles O31: the function codes write checked values only, SERVICE chains their writes, and no other event but
MON_EVAL writes. -/
theorem onlyLegalValuesAreEverWritten : Obligations.OnlyLegalValuesAreEverWritten := by
  unfold Obligations.OnlyLegalValuesAreEverWritten
  intro i s t a hreg hmon h
  have hw : LegalWrites s.cfg s.reg t.reg := by
    obtain ⟨hi, rfl⟩ | ⟨-, rfl⟩ | ⟨rfl, -⟩ | ⟨-, hr⟩ := exec_cfg_reg_cases h
    · exact functionStep_legalWrites hi hreg
    · exact serviceStep_legalWrites hreg
    · exact absurd rfl hmon
    · rw [hr]
      exact .refl hreg
  exact ⟨hw.1, hw.2 a⟩

/-- Settles O58: neither the fetch, an input, the validation nor an instruction writes `cfg`. -/
theorem parametersAreFixedForARun : Obligations.ParametersAreFixedForARun := by
  unfold Obligations.ParametersAreFixedForARun
  intro s t ht
  have hp := paramsOk_of_step_next ht
  obtain hf | ⟨i, rest, hf⟩ | hf | ⟨x, rest, hf⟩ := fetch_cases s
  · rw [step_of_fetch_validate hp hf] at ht
    cases ht
    exact (validateStep_frame s).1
  · rw [step_of_fetch_run hp hf] at ht
    exact exec_cfg (s := { s with script := rest }) ht
  · rw [step_of_fetch_idle hp hf] at ht
    cases ht
    rfl
  · rw [step_of_fetch_idle hp hf] at ht
    cases ht
    exact applyInput_cfg x { s with script := rest }

end Sys2Proof.Machine
end

section
/-! Where a SERVICE may be cut: no engine step looks past the head of the receive queue (20_memory.md R71, R72). -/

namespace Sys2Proof.Machine

/-! ## The engine does not see the rest of the queue -/

/-- A state with the receive queue replaced. -/
def setQueue (q : List RxEntry) (s : State) : State := { s with rxq := q }

theorem validateStep_setQueue (q : List RxEntry) (s : State) :
    validateStep (setQueue q s) = setQueue q (validateStep s) := by
  simp only [validateStep, setQueue]
  cases classify s.cfg s.curBad s.fbuf <;> rfl

theorem functionStep_setQueue (i : Instr) (q : List RxEntry) (s : State) :
    functionStep i (setQueue q s) = setQueue q (functionStep i s) := by
  cases i with
  | readHolding a st n =>
    simp only [functionStep, readHoldingStep]
    cases checkRead st.toNat n.toNat <;> rfl
  | writeSingle a tg v =>
    simp only [functionStep, writeSingleStep, setQueue]
    cases checkWrite1 s.cfg tg.toNat v <;> rfl
  | writeMultiple a st n b d =>
    simp only [functionStep, writeMultipleStep, setQueue]
    cases checkWriteMultiple s.cfg st.toNat n.toNat b.toNat d <;> rfl
  | illegalFunction | reset | rxByte | rxGap | rxErr | service | tick | monEval | estopSet | estopClear | statsClear
  | crcInit | crcUpdate | reservedEvent => rfl

theorem validateStep_rxq (s : State) : (validateStep s).rxq = s.rxq :=
  (congrArg State.rxq (validateStep_setQueue s.rxq s) :)

theorem functionStep_rxq (i : Instr) (s : State) : (functionStep i s).rxq = s.rxq :=
  (congrArg State.rxq (functionStep_setQueue i s.rxq s) :)

/-- An engine step with more entries behind the queue is the same step, with those entries still behind it. -/
theorem engineStep_append {s t : State} (q : List RxEntry) (h : engineStep s = some t) :
    engineStep (setQueue (s.rxq ++ q) s) = some (setQueue (t.rxq ++ q) t) := by
  obtain ⟨hp, e, rest, hq, rfl⟩ | ⟨hp, e, rest, hq, rfl⟩ | ⟨hp, rfl⟩ | ⟨r, hp, rfl⟩ | ⟨rbuf, hp, hready, rfl⟩ :=
    engineStep_cases h
  · simp only [engineStep, setQueue, hp, hq, List.cons_append, idle_take]
    cases e.kind <;> simp
  · simp only [engineStep, setQueue, hp, hq, List.cons_append, receiving_take]
    cases e.kind <;> simp
  · rw [validateStep_rxq, ← validateStep_setQueue]
    simp only [engineStep, setQueue, hp]
  · rw [functionStep_rxq, ← functionStep_setQueue]
    simp only [engineStep, setQueue, hp]
  · change _ = some (sendResponse rbuf (setQueue (s.rxq ++ q) s))
    simp only [engineStep, setQueue, hp, hready, if_true]

/-- Where the engine stands still outside HALTED, with `tx_ready`, the queue is empty (R186). -/
theorem rxq_of_engineStep_none {s : State} (hh : s.pstate ≠ .halted) (hready : s.txReady = true)
    (h : engineStep s = none) : s.rxq = [] := by
  cases hp : s.pstate with
  | idle | receiving =>
    cases hq : s.rxq with
    | nil => rfl
    | cons e rest => simp only [engineStep, hp, hq, reduceCtorEq] at h
  | validating | dispatching => simp only [engineStep, hp, reduceCtorEq] at h
  | responding => simp only [engineStep, hp, hready, if_true, reduceCtorEq] at h
  | halted => exact absurd hp hh

/-! ## SERVICE with no arrivals -/

theorem takeArrival_nil {s : State} (h : s.arrivals = []) : takeArrival s = none := by
  simp only [takeArrival, h]

theorem countArrivals_nil {s : State} (h : s.arrivals = []) : countArrivals s = s := by
  simp only [countArrivals, h]

/-- With no arrivals pending SERVICE takes the one enabled step, then goes on (R186). -/
theorem serviceStep_of_step {s t : State} (ha : s.arrivals = []) (h : engineStep s = some t) :
    serviceStep s = serviceStep t := by
  rw [serviceStep_engine (takeArrival_nil ha) h, countArrivals_nil ((engineStep_arrivals h).1.trans ha)]

/-- Serving a queue leaves nothing of it, and with more entries behind it is serving it first and them next: the engine
takes the same steps until the first part is used up (R71, R186). -/
theorem serviceStep_append {s : State} (q : List RxEntry) (hh : s.pstate ≠ .halted) (ha : s.arrivals = [])
    (hready : s.txReady = true) :
    (serviceStep s).rxq = [] ∧ (serviceStep s).pstate ≠ .halted ∧
      serviceStep (setQueue (s.rxq ++ q) s) = serviceStep (setQueue q (serviceStep s)) := by
  induction hn : serviceBound s using Nat.strong_induction_on generalizing s with
  | _ n ih =>
    subst hn
    cases he : engineStep s with
    | none =>
      have hq := rxq_of_engineStep_none hh hready he
      rw [serviceStep_done (takeArrival_nil ha) he, hq]
      exact ⟨rfl, hh, rfl⟩
    | some t =>
      obtain ⟨hta, hth⟩ := engineStep_arrivals he
      rw [serviceStep_of_step ha he, serviceStep_of_step (s := setQueue (s.rxq ++ q) s) ha (engineStep_append q he)]
      exact ih _ (engineStep_bound he) hth (hta.trans ha) ((engineStep_frame he).2.trans hready) rfl

/-- Settles O36: by induction on SERVICE's bound, one engine step at a time. -/
theorem serviceMayBeCutAnywhere : Obligations.ServiceMayBeCutAnywhere := by
  unfold Obligations.ServiceMayBeCutAnywhere
  intro s q q' hh ha hready hq
  obtain ⟨hempty, hth, hcut⟩ := serviceStep_append (s := setQueue q s) q' hh ha hready
  have hs : s = setQueue (q ++ q') (setQueue q s) := by rw [← hq]; rfl
  refine ⟨_, _, exec_service (s := setQueue q s) hh, hempty, exec_service (s := setQueue q' _) hth, ?_⟩
  rw [exec_service hh, ← hcut]
  exact congrArg (fun u => Host.Outcome.next (serviceStep u)) hs

end Sys2Proof.Machine
end

section
/-! The operands and their bytes, and the decoder and the encoder as inverses of each other (30_encoding.md R80 to
R92). -/

namespace Sys2Proof.Machine

/-! ## Words and the bytes of a string -/

theorem toNat_be16 (h l : Byte) : (be16 h l).toNat = 256 * h.toNat + l.toNat := by
  have hh : (h.setWidth 16 <<< 8).toNat = h.toNat <<< 8 := by
    simp only [BitVec.toNat_shiftLeft, BitVec.toNat_setWidth, Nat.shiftLeft_eq]
    omega
  rw [be16, BitVec.toNat_or, hh, BitVec.toNat_setWidth_of_le (by decide), ← Nat.shiftLeft_add_eq_or_of_lt l.isLt,
    Nat.shiftLeft_eq, Nat.mul_comm]

@[simp] theorem wordBytes_be16 (h l : Byte) : wordBytes (be16 h l) = [h, l] := by
  simp only [wordBytes, hi_be16, lo_be16]

theorem byteAt_slice {f : List Byte} {i k n : Nat} (h : i < n) : byteAt ((f.drop k).take n) i = byteAt f (k + i) := by
  simp only [byteAt, List.getD_eq_getElem?_getD, List.getElem?_take, List.getElem?_drop, if_pos h]

/-- The value words of a Write Multiple frame (R92). -/
theorem valueAt_slice {f : List Byte} {i k n : Nat} (h : 2 * i + 1 < n) :
    valueAt ((f.drop k).take n) i = be16 (byteAt f (k + 2 * i)) (byteAt f (k + 1 + 2 * i)) := by
  rw [valueAt, byteAt_slice (by omega), byteAt_slice h, Nat.add_right_comm k 1]
  rfl

/-- `n` adjacent bytes of a string, written out. -/
theorem slice_eq_map_byteAt {f : List Byte} {k n : Nat} (h : k + n ≤ f.length) :
    (f.drop k).take n = (List.range n).map (fun i => byteAt f (k + i)) := by
  apply List.ext_getElem
  · simp only [List.length_take, List.length_drop, List.length_map, List.length_range]
    omega
  · intro i _ hi
    have hlt : k + i < f.length := by
      simp only [List.length_map, List.length_range] at hi
      omega
    simp only [List.getElem_take, List.getElem_drop, List.getElem_map, List.getElem_range, byteAt,
      List.getD_eq_getElem _ _ hlt]

/-- The first `n` bytes of a string, written out. -/
theorem take_eq_map_byteAt {f : List Byte} {n : Nat} (h : n ≤ f.length) :
    f.take n = (List.range n).map (byteAt f) := by
  simpa using slice_eq_map_byteAt (f := f) (k := 0) (n := n) (by omega)

/-- The CRC check, with the received CRC read low byte first (R92, R115). -/
theorem crcOk_iff {f : List Byte} :
    crcOk f = true ↔ crc16 (f.take (f.length - 2)) = be16 (byteAt f (f.length - 1)) (byteAt f (f.length - 2)) :=
  beq_iff_eq

/-- A frame that passes the CRC check is its own bytes before the CRC with their CRC appended (R115, R116). -/
theorem crcAppend_take_of_crcOk {f : List Byte} (hf : 2 ≤ f.length) (h : crcOk f = true) :
    crcAppend (f.take (f.length - 2)) = f := by
  obtain ⟨k, hk⟩ := Nat.exists_eq_add_of_le' hf
  have htail : f.drop k = [byteAt f k, byteAt f (k + 1)] := by
    have hlen : (f.drop k).length = 2 := by simp [hk]
    rw [← (f.drop k).take_of_length_le hlen.le, slice_eq_map_byteAt hk.ge]
    rfl
  have hk1 : f.length - 1 = k + 1 := by omega
  rw [crcAppend, crcOk_iff.mp h, hi_be16, lo_be16, hk1, hk, Nat.add_sub_cancel, ← htail, List.take_append_drop]

/-! ## The decoder -/

/-- The frames that validation accepts: they pass every check of R145 and give the request assembled from them. -/
theorem classify_eq_accept_iff {p : Params} {poisoned : Bool} {f : List Byte} {r : Request} :
    classify p poisoned f = .accept r ↔
      poisoned = false ∧ 4 ≤ f.length ∧ crcOk f = true ∧ byteAt f 0 = p.slaveId ∧ lengthOk p f = true ∧
        parseRequest f = r := by
  unfold classify
  split_ifs with hbad hshort hcrc haddr hlen
  · simp [hbad]
  · simp [Nat.not_le.mpr hshort]
  · simp [(Bool.not_eq_true' _).mp hcrc]
  · simp [bne_iff_ne.mp haddr]
  · simp [(Bool.not_eq_true' _).mp hlen]
  · simp_all

/-- A frame decodes to the instruction its accepted request selects, if it fits FRAME_MAX (R133, R140). -/
theorem decode_frame_eq_ok_iff {p : Params} {f : List Byte} {i : Instr} :
    decode p (.frame f) = .ok i ↔
      f.length ≤ Config.frameMax ∧ ∃ r, classify p false f = .accept r ∧ selectFunction p r = i := by
  constructor
  · intro h
    simp only [decode] at h
    split at h
    next r hc =>
      have hp := classify_accept_not_poisoned hc
      rw [hp] at hc
      exact ⟨by simpa using hp, r, hc, Except.ok.inj h⟩
    all_goals cases h
  · rintro ⟨hlen, r, hc, rfl⟩
    have hp : decide (Config.frameMax < f.length) = false := by simpa using hlen
    simp only [decode, hp, hc]

theorem selectsNamed_iff {p : Params} {fc : Byte} :
    selectsNamed p fc = true ↔ fc = 0x03#8 ∨ fc = 0x06#8 ∨ (fc = 0x10#8 ∧ p.fc10Supported = true) := by
  simp only [selectsNamed, Bool.or_eq_true, Bool.and_eq_true, beq_iff_eq, or_assoc]

theorem selectsNamed_eq_false_iff {p : Params} {fc : Byte} :
    selectsNamed p fc = false ↔ fc ≠ 0x03#8 ∧ fc ≠ 0x06#8 ∧ ¬(fc = 0x10#8 ∧ p.fc10Supported = true) := by
  rw [← Bool.not_eq_true, selectsNamed_iff, not_or, not_or]

/-- A Read or a Write Single has eight bytes (R144). -/
theorem lengthOk_eight {p : Params} {f : List Byte} (h : byteAt f 1 = 0x03#8 ∨ byteAt f 1 = 0x06#8) :
    lengthOk p f = true ↔ f.length = 8 := by
  obtain h | h := h <;> simp [lengthOk, h]

/-- A Write Multiple has nine bytes and as many value bytes as its byte count says (R144). -/
theorem lengthOk_multiple {p : Params} {f : List Byte} (h : byteAt f 1 = 0x10#8) (hp : p.fc10Supported = true) :
    lengthOk p f = true ↔ f.length = 9 + (byteAt f 6).toNat := by
  have hf : lengthOk p f = (decide (9 ≤ f.length) && f.length == 9 + (byteAt f 6).toNat) := by simp [lengthOk, h, hp]
  rw [hf, Bool.and_eq_true, decide_eq_true_eq, beq_iff_eq]
  omega

/-- Any other function byte has no length check of its own (R144, R173). -/
theorem lengthOk_other {p : Params} {f : List Byte} (h : selectsNamed p (byteAt f 1) = false) :
    lengthOk p f = true := by
  obtain ⟨h3, h6, h10⟩ := selectsNamed_eq_false_iff.mp h
  simp [lengthOk, h3, h6, h10]

/-! ## The instruction that a frame's request selects (R87, R92) -/

theorem selectFunction_readHolding {p : Params} {f : List Byte} (hfc : byteAt f 1 = 0x03#8) (h8 : 8 ≤ f.length) :
    selectFunction p (parseRequest f) =
      .readHolding (byteAt f 0) (be16 (byteAt f 2) (byteAt f 3)) (be16 (byteAt f 4) (byteAt f 5)) := by
  have h6 : 6 ≤ f.length := by omega
  simp only [selectFunction, parseRequest, hfc, h6, h8, if_true]

theorem selectFunction_writeSingle {p : Params} {f : List Byte} (hfc : byteAt f 1 = 0x06#8) (h8 : 8 ≤ f.length) :
    selectFunction p (parseRequest f) =
      .writeSingle (byteAt f 0) (be16 (byteAt f 2) (byteAt f 3)) (be16 (byteAt f 4) (byteAt f 5)) := by
  have h6 : 6 ≤ f.length := by omega
  simp [selectFunction, parseRequest, hfc, h6, h8]

theorem selectFunction_writeMultiple {p : Params} {f : List Byte} (hfc : byteAt f 1 = 0x10#8)
    (hp : p.fc10Supported = true) (h9 : 9 ≤ f.length) :
    selectFunction p (parseRequest f) =
      .writeMultiple (byteAt f 0) (be16 (byteAt f 2) (byteAt f 3)) (be16 (byteAt f 4) (byteAt f 5)) (byteAt f 6)
        ((f.drop 7).take (f.length - 9)) := by
  have h6 : 6 ≤ f.length := by omega
  have h8 : 8 ≤ f.length := by omega
  simp [selectFunction, parseRequest, hfc, hp, h6, h8, h9]

theorem selectFunction_illegalFunction {p : Params} {r : Request} (h : selectsNamed p r.fc = false) :
    selectFunction p r = .illegalFunction r.addr r.fc := by
  obtain ⟨h3, h6, h10⟩ := selectsNamed_eq_false_iff.mp h
  rw [selectFunction, if_neg h3, if_neg h6, if_neg h10]

/-- The encoding of a function code is its request's bytes with their CRC (R80). -/
theorem encode_selectFunction (p : Params) (r : Request) :
    encode (selectFunction p r) = .frame (crcAppend (requestBody (selectFunction p r))) := by
  obtain ⟨_, _, _, h⟩ | ⟨_, _, _, h⟩ | ⟨_, _, _, _, _, h⟩ | ⟨_, _, h⟩ := selectFunction_is_function p r <;>
    simp only [h, encode]

/-! ## The encoder and the decoder -/

/-- The frame made from a request's bytes decodes to the instruction they select, if it fits, is addressed to this slave
and passes the length check. -/
theorem decode_crcAppend {p : Params} {m : List Byte} (hsize : Laws.EncodeSize.sizeOk (.frame (crcAppend m)))
    (haddr : byteAt (crcAppend m) 0 = p.slaveId) (hlen : lengthOk p (crcAppend m) = true) :
    decode p (.frame (crcAppend m)) = .ok (selectFunction p (parseRequest (crcAppend m))) :=
  decode_frame_eq_ok_iff.mpr
    ⟨hsize.2, _, classify_eq_accept_iff.mpr ⟨rfl, hsize.1, crcOk_crcAppend m, haddr, hlen, rfl⟩, rfl⟩

theorem decodePort_reserved {code : BitVec 4} (h : 12 ≤ code.toNat) (b : Byte) :
    decodePort code b = .reservedEvent code := by
  unfold decodePort
  split
  case h_13 => rfl
  all_goals omega

/-- The bytes before the CRC of a frame of a named function are those its instruction is encoded with (R81 to R83). -/
theorem requestBody_selectFunction {p : Params} {f : List Byte} (hfc : selectsNamed p (byteAt f 1) = true)
    (hlen : lengthOk p f = true) :
    requestBody (selectFunction p (parseRequest f)) = f.take (f.length - 2) := by
  obtain hfc | hfc | ⟨hfc, hp⟩ := selectsNamed_iff.mp hfc
  · have hl := (lengthOk_eight (.inl hfc)).mp hlen
    rw [selectFunction_readHolding hfc hl.ge, hl, take_eq_map_byteAt (by omega)]
    simp [requestBody, List.range_succ, hfc]
  · have hl := (lengthOk_eight (.inr hfc)).mp hlen
    rw [selectFunction_writeSingle hfc hl.ge, hl, take_eq_map_byteAt (by omega)]
    simp [requestBody, List.range_succ, hfc]
  · have hl := (lengthOk_multiple hfc hp).mp hlen
    have h2 : f.length - 2 = 7 + (f.length - 9) := by omega
    rw [selectFunction_writeMultiple hfc hp (by omega), h2, List.take_add, take_eq_map_byteAt (n := 7) (by omega)]
    simp [requestBody, List.range_succ, hfc]

/-- The instruction that an accepted frame of a named function selects is well-formed. -/
theorem wellFormed_selectFunction {p : Params} {f : List Byte} (hfc : selectsNamed p (byteAt f 1) = true)
    (hmax : f.length ≤ Config.frameMax) (haddr : byteAt f 0 = p.slaveId) (hlen : lengthOk p f = true) :
    (selectFunction p (parseRequest f)).wellFormed p = true := by
  obtain hfc | hfc | ⟨hfc, hp⟩ := selectsNamed_iff.mp hfc
  · have hl := (lengthOk_eight (.inl hfc)).mp hlen
    rw [selectFunction_readHolding hfc hl.ge]
    simpa only [Instr.wellFormed, beq_iff_eq] using haddr
  · have hl := (lengthOk_eight (.inr hfc)).mp hlen
    rw [selectFunction_writeSingle hfc hl.ge]
    simpa only [Instr.wellFormed, beq_iff_eq] using haddr
  · have hl := (lengthOk_multiple hfc hp).mp hlen
    have h9 : 9 ≤ f.length := by omega
    have hdata : ((f.drop 7).take (f.length - 9)).length = f.length - 9 := by
      simp only [List.length_take, List.length_drop]
      omega
    rw [selectFunction_writeMultiple hfc hp h9]
    simp only [Instr.wellFormed, Bool.and_eq_true, beq_iff_eq, decide_eq_true_eq, hdata]
    exact ⟨⟨⟨haddr, hp⟩, by omega⟩, (Nat.add_sub_of_le h9).trans_le hmax⟩

/-! ## The obligations -/

/-- Settles O7: the encoding of a request passes every check of the decoder, and its operands are read where the encoder
put them; an event code is looked up. -/
theorem decodeInvertsEncode : Obligations.DecodeInvertsEncode := by
  unfold Obligations.DecodeInvertsEncode
  intro p i h
  cases i with
  | readHolding addr start qty =>
    have haddr : addr = p.slaveId := by simpa only [Instr.wellFormed, beq_iff_eq] using h
    have hl : (crcAppend (requestBody (.readHolding addr start qty))).length = 8 := crcAppend_length _
    refine (decode_crcAppend (Laws.EncodeSize.readHolding addr start qty p h) haddr
      ((lengthOk_eight (.inl rfl)).mpr hl)).trans ?_
    rw [selectFunction_readHolding rfl hl.ge]
    simp [requestBody, crcAppend, wordBytes, byteAt]
  | writeSingle addr target value =>
    have haddr : addr = p.slaveId := by simpa only [Instr.wellFormed, beq_iff_eq] using h
    have hl : (crcAppend (requestBody (.writeSingle addr target value))).length = 8 := crcAppend_length _
    refine (decode_crcAppend (Laws.EncodeSize.writeSingle addr target value p h) haddr
      ((lengthOk_eight (.inr rfl)).mpr hl)).trans ?_
    rw [selectFunction_writeSingle rfl hl.ge]
    simp [requestBody, crcAppend, wordBytes, byteAt]
  | writeMultiple addr start qty bcount data =>
    obtain ⟨haddr, hp, hdata, -⟩ : addr = p.slaveId ∧ p.fc10Supported = true ∧ data.length = bcount.toNat ∧ _ := by
      simpa only [Instr.wellFormed, Bool.and_eq_true, beq_iff_eq, and_assoc] using h
    have hl : (crcAppend (requestBody (.writeMultiple addr start qty bcount data))).length = 9 + data.length := by
      simp only [crcAppend_length, requestBody, wordBytes, List.length_append, List.length_cons, List.length_nil]
      omega
    refine (decode_crcAppend (Laws.EncodeSize.writeMultiple addr start qty bcount data p h) haddr
      ((lengthOk_multiple rfl hp).mpr (hl.trans (congrArg (9 + ·) hdata)))).trans ?_
    rw [selectFunction_writeMultiple rfl hp (by omega)]
    simp [requestBody, crcAppend, wordBytes, byteAt]
  | illegalFunction addr fc =>
    obtain ⟨haddr, hfc⟩ : addr = p.slaveId ∧ selectsNamed p fc = false := by
      simpa only [Instr.wellFormed, Bool.and_eq_true, beq_iff_eq, Bool.not_eq_true'] using h
    refine (decode_crcAppend (Laws.EncodeSize.illegalFunction addr fc p h) haddr (lengthOk_other hfc)).trans ?_
    rw [selectFunction_illegalFunction hfc]
    rfl
  | reservedEvent code =>
    exact congrArg Except.ok (decodePort_reserved (by simpa only [Instr.wellFormed, decide_eq_true_eq] using h) 0#8)
  | reset | rxByte | rxGap | rxErr | service | tick | monEval | estopSet | estopClear | statsClear | crcInit
  | crcUpdate => rfl

/-- Settles O8: the frame is its bytes before the CRC with their CRC, and those bytes are the decoded instruction's. -/
theorem encodeInvertsDecodeOnNamedFunctions : Obligations.EncodeInvertsDecodeOnNamedFunctions := by
  unfold Obligations.EncodeInvertsDecodeOnNamedFunctions
  intro p f i h hfc
  obtain ⟨hmax, r, hr, rfl⟩ := decode_frame_eq_ok_iff.mp h
  obtain ⟨-, hmin, hcrc, haddr, hlen, rfl⟩ := classify_eq_accept_iff.mp hr
  refine ⟨?_, wellFormed_selectFunction hfc hmax haddr hlen⟩
  rw [encode_selectFunction, requestBody_selectFunction hfc hlen, crcAppend_take_of_crcOk (by omega) hcrc]

/-- Settles O10: a word's value from its two bytes; those of a Write Multiple's values begin seven bytes into the frame. -/
theorem operandsAreHighByteFirst : Obligations.OperandsAreHighByteFirst := by
  unfold Obligations.OperandsAreHighByteFirst
  intro f
  refine ⟨fun h8 => ?_, fun h9 => ?_, fun i hi => ?_, fun _ => ?_⟩
  · have h6 : 6 ≤ f.length := by omega
    simp only [parseRequest, h6, h8, if_true, toNat_be16, and_self]
  · simp only [parseRequest, h9, if_true]
  · have h9 : 9 ≤ f.length := by omega
    simp only [parseRequest, h9, if_true]
    rw [valueAt_slice (by omega), toNat_be16]
  · rw [crcOk_iff, ← BitVec.toNat_inj, toNat_be16, Nat.add_comm]

/-- What is the encoding of a well-formed instruction decodes to it. -/
theorem decode_of_encode {p : Params} {i : Instr} {e : Encoded} (h : i.wellFormed p = true) (he : encode i = e) :
    decode p e = .ok i :=
  he ▸ decodeInvertsEncode p i h

/-- Settles O9: the event codes are the decoder's table, and each frame is the encoding of its instruction. -/
theorem writtenOutWordsDecode : Obligations.WrittenOutWordsDecode := by
  unfold Obligations.WrittenOutWordsDecode
  refine ⟨fun p b => ⟨rfl, rfl, rfl, rfl, rfl, rfl, rfl, rfl, rfl, rfl, rfl, rfl, rfl, rfl, rfl, rfl⟩, ?_, ?_, ?_, ?_⟩
  all_goals exact decode_of_encode (by decide) (by decide +kernel)

end Sys2Proof.Machine
end

section
/-! The coding of a queue entry (30_encoding.md R89). -/

namespace Sys2Proof.Machine

/-- The kind field of a queue entry. -/
def kindField : RxKind → BitVec 2
  | .byte _ => 0#2
  | .gap => 1#2
  | .err => 2#2

/-- The byte field of a queue entry. -/
def byteField : RxKind → Byte
  | .byte b => b
  | .gap | .err => 0#8

theorem encodeEntry_eq (e : RxEntry) :
    encodeEntry e = BitVec.ofBool e.lost ++ (kindField e.kind ++ byteField e.kind) := by
  obtain ⟨k, l⟩ := e
  cases k <;> rfl

/-- The three fields of a coded entry, bit by bit. -/
theorem getLsbD_encodeEntry (e : RxEntry) (i : Nat) :
    (encodeEntry e).getLsbD i =
      if i < 10 then if i < 8 then (byteField e.kind).getLsbD i else (kindField e.kind).getLsbD (i - 8)
      else (BitVec.ofBool e.lost).getLsbD (i - 10) := by
  rw [encodeEntry_eq, ← BitVec.getLsbD_append]
  exact BitVec.getLsbD_append

theorem encodeEntry_lost (e : RxEntry) : (encodeEntry e).getLsbD 10 = e.lost :=
  (getLsbD_encodeEntry e 10).trans (by simp)

theorem encodeEntry_kind (e : RxEntry) : (encodeEntry e).extractLsb' 8 2 = kindField e.kind := by
  apply BitVec.eq_of_getLsbD_eq
  intro i hi
  rw [BitVec.getLsbD_extractLsb', getLsbD_encodeEntry, if_pos (by omega), if_neg (by omega), Nat.add_sub_cancel_left]
  simp only [hi, decide_true, Bool.true_and]

theorem encodeEntry_byte (e : RxEntry) : (encodeEntry e).extractLsb' 0 8 = byteField e.kind := by
  apply BitVec.eq_of_getLsbD_eq
  intro i hi
  rw [BitVec.getLsbD_extractLsb', getLsbD_encodeEntry, Nat.zero_add, if_pos (by omega), if_pos hi]
  simp only [hi, decide_true, Bool.true_and]

/-- Settles O11: the three fields of a coded entry, read back kind by kind. -/
theorem queueEntryCodingRoundTrips : Obligations.QueueEntryCodingRoundTrips := by
  unfold Obligations.QueueEntryCodingRoundTrips
  refine ⟨fun e => ⟨?_, encodeEntry_lost e⟩, fun b l => ⟨encodeEntry_kind _, encodeEntry_byte _⟩,
    fun l => ⟨encodeEntry_kind _, encodeEntry_byte _⟩, fun l => ⟨encodeEntry_kind _, encodeEntry_byte _⟩,
    fun w hw => ?_⟩
  · obtain ⟨k, l⟩ := e
    cases k <;> simp only [decodeEntry, encodeEntry_kind, encodeEntry_byte, encodeEntry_lost] <;> rfl
  · simp [decodeEntry, hw]

end Sys2Proof.Machine
end

section
/-! Which events have no step (30_encoding.md R85), and that a step runs what the decoder gives (R84, 42_dispatch.md
R174). -/

namespace Sys2Proof.Machine

/-- Settles O53: a reserved code has no step, the block's events run `unlessHalted`, and the front-end's push without
looking at `pstate`. -/
theorem reservedCodesAndHaltedRefuse : Obligations.ReservedCodesAndHaltedRefuse := by
  unfold Obligations.ReservedCodesAndHaltedRefuse
  refine ⟨fun _ _ => rfl, ?_, ?_⟩
  · intro i s hh hi
    obtain rfl | rfl | rfl | rfl | rfl | rfl | rfl | ⟨b, rfl⟩ := hi
    all_goals
      simp only [exec, execService, execTick, execMonEval, execEstopSet, execEstopClear, execStatsClear, execCrcInit,
        execCrcUpdate, unlessHalted_halted hh]
  · intro s _ hroom
    have hpush (k : RxKind) : rxPush k s = { s with rxq := s.rxq ++ [⟨k, false⟩] } := by
      rw [rxPush, pushEntry_room k hroom]
    exact ⟨fun b => congrArg _ (hpush (.byte b)), congrArg _ (hpush .gap), congrArg _ (hpush .err)⟩

/-- Settles O55: an event at the head of the script is decoded by its code; the request in DISPATCHING is the one that
the frame buffer gives. -/
theorem stepRunsTheDecodedInstruction : Obligations.StepRunsTheDecodedInstruction := by
  unfold Obligations.StepRunsTheDecodedInstruction
  intro s hp
  refine ⟨fun code b rest hs hv hd => ⟨decodePort code b, rfl, step_of_fetch_run hp ?_⟩,
    fun r hr hlen hc =>
      ⟨selectFunction s.cfg r, decode_frame_eq_ok_iff.mpr ⟨hlen, r, hc, rfl⟩, step_of_fetch_run hp ?_⟩⟩
  · rw [fetch_eq_fetchStimulus hv hd]
    simp only [fetchStimulus, hs]
  · simp only [fetch, hr]

end Sys2Proof.Machine
end

section
/-! The CRC functions (40_crc.md R112 to R118): a word whose low bits are 0 is only shifted, and the step is injective.
From the first come the table-driven form and the residue property, from the second that one wrong byte is detected. -/

namespace Sys2Proof.Machine

/-! ## The two halves of a word -/

/-- The halves do not overlap, so a word is also their XOR. -/
theorem be16_eq_xor (h l : Byte) : be16 h l = (h.setWidth 16 <<< 8) ^^^ l.setWidth 16 := by
  apply BitVec.eq_of_getLsbD_eq
  intro i hi
  simp only [be16, BitVec.getLsbD_or, BitVec.getLsbD_xor, BitVec.getLsbD_shiftLeft, BitVec.getLsbD_setWidth]
  by_cases h8 : i < 8
  · simp [h8]
  · simp [h8, BitVec.getLsbD_of_ge l i (by omega)]

theorem shiftRight_eight_eq_hi (c : Word) : c >>> 8 = (hi c).setWidth 16 := by
  apply BitVec.eq_of_getLsbD_eq
  intro i hi'
  simp only [hi, BitVec.getLsbD_ushiftRight, BitVec.getLsbD_setWidth, BitVec.getLsbD_extractLsb', hi', decide_true,
    Bool.true_and]
  by_cases h8 : i < 8
  · simp [h8]
  · simp [h8, BitVec.getLsbD_of_ge c (8 + i) (by omega)]

theorem setWidth_eight_eq_lo (c : Word) : c.setWidth 8 = lo c := by
  rw [lo, BitVec.setWidth_eq_extractLsb' (by decide)]

/-! ## The loop of the CRC step -/

theorem crcShifts_eq_iterate (n : Nat) (c : Word) : crcShifts n c = crcShift^[n] c := by
  induction n generalizing c with
  | zero => rfl
  | succ n ih => exact ih (crcShift c)

theorem crcShifts_add (m n : Nat) (c : Word) : crcShifts (m + n) c = crcShifts n (crcShifts m c) := by
  induction m generalizing c with
  | zero => rw [Nat.zero_add]; rfl
  | succ m ih => rw [Nat.succ_add]; exact ih (crcShift c)

/-- While the bits shifted out are 0 the polynomial stays out (R112). -/
theorem crcShifts_of_low_bits_zero {n : Nat} {c : Word} (h : ∀ i < n, c.getLsbD i = false) :
    crcShifts n c = c >>> n := by
  induction n generalizing c with
  | zero => rfl
  | succ n ih =>
    have hturn : crcShift c = c >>> 1 := if_neg (by rw [h 0 n.succ_pos]; decide)
    have hlow : ∀ i < n, (c >>> 1).getLsbD i = false := fun i hi => by
      rw [BitVec.getLsbD_ushiftRight, h _ (by omega)]
    rw [crcShifts, hturn, ih hlow, ← BitVec.shiftRight_add, Nat.add_comm]

/-- Eight turns move the high half down to the low half. -/
theorem crcShifts_high_half (h : Byte) : crcShifts 8 (h.setWidth 16 <<< 8) = h.setWidth 16 := by
  rw [crcShifts_of_low_bits_zero fun i hi => by simp [hi]]
  have hword : h.setWidth 16 <<< 8 = be16 h 0#8 := by simp [be16]
  rw [hword, shiftRight_eight_eq_hi, hi_be16]

@[simp] theorem crcShifts_zero (n : Nat) : crcShifts n 0#16 = 0#16 := by simpa using crcShifts_xor n 0#16 0#16

/-- The turns are linear and give 0 from 0 alone. -/
theorem crcShifts_injective (n : Nat) : Function.Injective (crcShifts n) := by
  intro a b hab
  have hxor : crcShifts n (a ^^^ b) = 0#16 := by rw [crcShifts_xor, hab, BitVec.xor_self]
  exact BitVec.xor_eq_zero_iff.mp (crcShifts_eq_zero hxor)

/-! ## The step and its fold -/

theorem crcStep8_left_injective (b : Byte) : Function.Injective (crcStep8 · b) := by
  intro c d h
  have hxor : c ^^^ b.setWidth 16 = d ^^^ b.setWidth 16 := crcShifts_injective 8 h
  exact (BitVec.xor_left_inj _).mp hxor

theorem crcStep8_right_injective (c : Word) : Function.Injective (crcStep8 c) := by
  intro a b h
  have hxor : c ^^^ a.setWidth 16 = c ^^^ b.setWidth 16 := crcShifts_injective 8 h
  simpa using congrArg (BitVec.setWidth 8) ((BitVec.xor_right_inj _).mp hxor)

theorem crcFold_left_injective (s : List Byte) : Function.Injective (crcFold · s) := by
  induction s with
  | nil => exact fun _ _ h => h
  | cons b s ih => exact fun _ _ h => crcStep8_left_injective b (ih h)

/-- Two bytes, low half first, go through the loop as the one word they make. -/
theorem crcFold_pair (c : Word) (l h : Byte) : crcFold c [l, h] = crcShifts 16 (c ^^^ be16 h l) := by
  calc crcFold c [l, h]
      = crcShifts 8 (crcShifts 8 (c ^^^ l.setWidth 16) ^^^ h.setWidth 16) := rfl
    _ = crcShifts 8 (crcShifts 8 (c ^^^ l.setWidth 16 ^^^ h.setWidth 16 <<< 8)) := by
        rw [crcShifts_xor 8 (c ^^^ _), crcShifts_high_half]
    _ = crcShifts 16 (c ^^^ be16 h l) := by
        rw [← crcShifts_add 8 8, be16_eq_xor, BitVec.xor_assoc, BitVec.xor_comm (l.setWidth 16)]

theorem crcFold_pair_eq_zero_iff {c : Word} {l h : Byte} : crcFold c [l, h] = 0#16 ↔ c = be16 h l := by
  rw [crcFold_pair, ← BitVec.xor_eq_zero_iff (x := c)]
  exact ⟨crcShifts_eq_zero, fun hxor => by rw [hxor, crcShifts_zero]⟩

/-- A frame is the bytes that its CRC covers and then its two CRC bytes (R115). -/
theorem take_append_crcBytes {f : List Byte} (hf : 2 ≤ f.length) :
    f.take (f.length - 2) ++ [byteAt f (f.length - 2), byteAt f (f.length - 1)] = f := by
  have htail : f.drop (f.length - 2) = [byteAt f (f.length - 2), byteAt f (f.length - 2 + 1)] := by
    rw [← (f.drop (f.length - 2)).take_of_length_le (i := 2) (by rw [List.length_drop]; omega),
      slice_eq_map_byteAt (by omega)]
    rfl
  have hlast : f.length - 1 = f.length - 2 + 1 := by omega
  rw [hlast, ← htail, List.take_append_drop]

/-- The check compares the received CRC, the residue is what the loop makes of it (R115, R117). -/
theorem crcOk_iff_residue {f : List Byte} (hf : 2 ≤ f.length) : crcOk f = true ↔ crc16 f = 0#16 := by
  have hres : crc16 f = crcFold (crc16 (f.take (f.length - 2))) [byteAt f (f.length - 2), byteAt f (f.length - 1)] := by
    rw [crc16, crc16, ← crcFold_append, take_append_crcBytes hf]
  rw [hres, crcFold_pair_eq_zero_iff, crcOk_iff]

/-- Two strings that differ in one byte alone have different CRCs: neither the step nor the fold loses anything (R112,
R119). -/
theorem byte_eq_of_crc16_eq {p q : List Byte} {a b : Byte} (h : crc16 (p ++ a :: q) = crc16 (p ++ b :: q)) : a = b := by
  rw [crc16, crc16, crcFold_append, crcFold_append] at h
  exact crcStep8_right_injective _ (crcFold_left_injective q h)

theorem byteAt_eq_of_crc16_set_eq {f : List Byte} {i : Nat} {b : Byte} (hi : i < f.length)
    (h : crc16 (f.set i b) = crc16 f) : byteAt f i = b := by
  have hset : f.set i b = f.take i ++ b :: f.drop (i + 1) := by rw [List.set_eq_take_append_cons_drop, if_pos hi]
  rw [byteAt, List.getD_eq_getElem _ _ hi]
  apply byte_eq_of_crc16_eq (p := f.take i) (q := f.drop (i + 1))
  rw [List.getElem_cons_drop, List.take_append_drop, ← hset, h]

/-! ## The obligations -/

/-- Settles O5: the two CRC bytes take the register to 0 exactly from the CRC they spell. -/
theorem crcResidueIsZeroExactlyWhenTheCheckHolds : Obligations.CrcResidueIsZeroExactlyWhenTheCheckHolds := by
  unfold Obligations.CrcResidueIsZeroExactlyWhenTheCheckHolds
  exact ⟨fun m => (crcOk_iff_residue (by simp)).mp (crcOk_crcAppend m), fun _ => crcOk_iff_residue⟩

/-- Settles O6: both frames would have residue 0, but the step loses neither the register nor the byte. -/
theorem oneCorruptedByteIsDetected : Obligations.OneCorruptedByteIsDetected := by
  unfold Obligations.OneCorruptedByteIsDetected
  intro f i b hf hok hi hb
  by_contra hbad
  have hset : crc16 (f.set i b) = 0#16 :=
    (crcOk_iff_residue (by rwa [List.length_set])).mp (Bool.eq_true_of_not_eq_false hbad)
  exact hb (byteAt_eq_of_crc16_set_eq hi (hset.trans ((crcOk_iff_residue hf).mp hok).symm))

/-- Settles O4: the eight turns only shift the high half, and act on the low half and the byte as on a zero register. -/
theorem crcTableFormEqualsBitSerial : Obligations.CrcTableFormEqualsBitSerial := by
  unfold Obligations.CrcTableFormEqualsBitSerial
  intro c b
  calc crcStep8 c b
      = crcShifts 8 (((hi c).setWidth 16 <<< 8) ^^^ (lo c ^^^ b).setWidth 16) := by
        rw [crcStep8, BitVec.setWidth_xor, ← BitVec.xor_assoc, ← be16_eq_xor, be16_hi_lo]
    _ = (c >>> 8) ^^^ crcStep8 0#16 (c.setWidth 8 ^^^ b) := by
        rw [crcShifts_xor, crcShifts_high_half, shiftRight_eight_eq_hi, setWidth_eight_eq_lo, crcStep8,
          BitVec.zero_xor]

/-- Settles O3: the model's turn is the rule's, iterated; its worked trace is evaluated. -/
theorem crcStepIsEightConditionalShifts : Obligations.CrcStepIsEightConditionalShifts := by
  unfold Obligations.CrcStepIsEightConditionalShifts
  exact ⟨fun c b => crcShifts_eq_iterate 8 _, by decide, by decide, by decide⟩

end Sys2Proof.Machine
end

section
/-! The CRC unit's register (40_crc.md R110, R111, R113): its two events change it alone, and of the other instructions
only RESET looks at it. -/

namespace Sys2Proof.Machine

/-! ## The CRC unit's events -/

/-- CRC_INIT restarts the register outside HALTED (R110). -/
theorem exec_crcInit (s : State) : exec .crcInit s = unlessHalted (fun s => { s with crc := Config.crcSeed }) s := rfl

/-- CRC_UPDATE folds its byte into the register outside HALTED (R111). -/
theorem exec_crcUpdate (b : Byte) (s : State) :
    exec (.crcUpdate b) s = unlessHalted (fun s => { s with crc := crcStep8 s.crc b }) s := rfl

/-- Settles O1: CRC_INIT is its effect outside HALTED. -/
theorem crcInitSeedsTheRegister : Obligations.CrcInitSeedsTheRegister := by
  unfold Obligations.CrcInitSeedsTheRegister
  intro s
  rw [exec_crcInit]
  exact ⟨unlessHalted_next, unlessHalted_halted⟩

/-- Settles O2: CRC_UPDATE is its effect outside HALTED; the rule's values are evaluated. -/
theorem crcUpdateFoldsItsByte : Obligations.CrcUpdateFoldsItsByte := by
  unfold Obligations.CrcUpdateFoldsItsByte
  refine ⟨fun s b => ?_, by decide, by decide, rfl, by decide +kernel, by decide +kernel⟩
  rw [exec_crcUpdate]
  exact ⟨unlessHalted_next, unlessHalted_halted⟩

/-! ## Whatever does not look at the register commutes with replacing it -/

/-- A state with the CRC unit's register replaced. -/
def setCrc (c : Word) (s : State) : State := { s with crc := c }

/-- An instruction's answer with the state it leads to replaced. -/
def mapNext (f : State → State) : Result → Result
  | .next s => .next (f s)
  | .fault r => .fault r
  | .refused r => .refused r

theorem unlessHalted_setCrc {f : State → State} {c : Word} {s : State} (hf : f (setCrc c s) = setCrc c (f s)) :
    unlessHalted f (setCrc c s) = mapNext (setCrc c) (unlessHalted f s) := by
  by_cases hh : s.pstate = .halted
  · rw [unlessHalted_halted hh, unlessHalted_halted (by exact hh)]
    rfl
  · rw [unlessHalted_next hh, unlessHalted_next (by exact hh), hf]
    rfl

theorem whenDispatching_setCrc {f : State → State} {c : Word} {s : State} (hf : f (setCrc c s) = setCrc c (f s)) :
    whenDispatching f (setCrc c s) = mapNext (setCrc c) (whenDispatching f s) := by
  have hp : (setCrc c s).pstate = s.pstate := rfl
  unfold whenDispatching
  rw [hp, hf]
  cases s.pstate <;> rfl

/-! ## The engine -/

theorem validateStep_setCrc (c : Word) (s : State) : validateStep (setCrc c s) = setCrc c (validateStep s) := by
  simp only [validateStep, setCrc]
  cases classify s.cfg s.curBad s.fbuf <;> rfl

theorem functionStep_setCrc (i : Instr) (c : Word) (s : State) :
    functionStep i (setCrc c s) = setCrc c (functionStep i s) := by
  cases i with
  | readHolding a st n =>
    simp only [functionStep, readHoldingStep]
    cases checkRead st.toNat n.toNat <;> rfl
  | writeSingle a tg v =>
    simp only [functionStep, writeSingleStep, setCrc]
    cases checkWrite1 s.cfg tg.toNat v <;> rfl
  | writeMultiple a st n b d =>
    simp only [functionStep, writeMultipleStep, setCrc]
    cases checkWriteMultiple s.cfg st.toNat n.toNat b.toNat d <;> rfl
  | illegalFunction | reset | rxByte | rxGap | rxErr | service | tick | monEval | estopSet | estopClear | statsClear
  | crcInit | crcUpdate | reservedEvent => rfl

theorem engineStep_setCrc (c : Word) (s : State) : engineStep (setCrc c s) = (engineStep s).map (setCrc c) := by
  cases hp : s.pstate with
  | idle =>
    cases hq : s.rxq with
    | nil => simp only [engineStep, setCrc, hp, hq, Option.map_none]
    | cons e rest =>
      simp only [engineStep, setCrc, hp, hq, idle_take, Option.map_some]
      cases e.kind <;> rfl
  | receiving =>
    cases hq : s.rxq with
    | nil => simp only [engineStep, setCrc, hp, hq, Option.map_none]
    | cons e rest =>
      simp only [engineStep, setCrc, hp, hq, receiving_take, Option.map_some]
      cases e.kind <;> rfl
  | validating =>
    have hs : engineStep s = some (validateStep s) := by simp only [engineStep, hp]
    rw [hs, Option.map_some, ← validateStep_setCrc]
    simp only [engineStep, setCrc, hp]
  | dispatching r =>
    have hs : engineStep s = some (functionStep (selectFunction s.cfg r) s) := by simp only [engineStep, hp]
    rw [hs, Option.map_some, ← functionStep_setCrc]
    simp only [engineStep, setCrc, hp]
  | responding rbuf =>
    simp only [engineStep, setCrc, hp]
    split <;> rfl
  | halted => simp only [engineStep, setCrc, hp, Option.map_none]

theorem takeArrival_setCrc (c : Word) (s : State) : takeArrival (setCrc c s) = (takeArrival s).map (setCrc c) := by
  cases ha : s.arrivals with
  | nil => rw [takeArrival_nil ha, takeArrival_nil (by exact ha)]; rfl
  | cons x later =>
    simp only [takeArrival, setCrc, ha]
    split <;> rfl

theorem countArrivals_setCrc (c : Word) (s : State) : countArrivals (setCrc c s) = setCrc c (countArrivals s) := by
  cases ha : s.arrivals with
  | nil => rw [countArrivals_nil ha, countArrivals_nil (by exact ha)]
  | cons x later => rw [countArrivals_cons ha, countArrivals_cons (by exact ha)]; rfl

/-- SERVICE takes the same steps whatever the register holds (R113, R186). -/
theorem serviceLoop_setCrc (n : Nat) (c : Word) (s : State) :
    serviceLoop n (setCrc c s) = setCrc c (serviceLoop n s) := by
  induction n generalizing s with
  | zero => rfl
  | succ n ih =>
    rw [serviceLoop, serviceLoop, takeArrival_setCrc, engineStep_setCrc]
    cases takeArrival s with
    | some t => exact ih t
    | none =>
      cases engineStep s with
      | some t => exact (congrArg (serviceLoop n) (countArrivals_setCrc c t)).trans (ih _)
      | none => rfl

/-! ## Every instruction -/

/-- The instructions but CRC_INIT, CRC_UPDATE and RESET do the same whatever the register holds, and keep it (R113). -/
theorem exec_setCrc {i : Instr} (hinit : i ≠ .crcInit) (hupdate : ∀ b : Byte, i ≠ .crcUpdate b) (hreset : i ≠ .reset)
    (c : Word) (s : State) : exec i (setCrc c s) = mapNext (setCrc c) (exec i s) := by
  cases i with
  | readHolding a st n => exact whenDispatching_setCrc (functionStep_setCrc (.readHolding a st n) c s)
  | writeSingle a tg v => exact whenDispatching_setCrc (functionStep_setCrc (.writeSingle a tg v) c s)
  | writeMultiple a st n b d => exact whenDispatching_setCrc (functionStep_setCrc (.writeMultiple a st n b d) c s)
  | illegalFunction a fc => exact whenDispatching_setCrc (functionStep_setCrc (.illegalFunction a fc) c s)
  | service => exact unlessHalted_setCrc (serviceLoop_setCrc (serviceBound s + 1) c s)
  | tick | monEval | estopSet | estopClear | statsClear =>
    simp only [exec]
    exact unlessHalted_setCrc (by rfl)
  | rxByte | rxGap | rxErr | reservedEvent => rfl
  | crcInit => exact absurd rfl hinit
  | crcUpdate b => exact absurd rfl (hupdate b)
  | reset => exact absurd rfl hreset

/-- Settles O39: replacing the register commutes with every instruction but the three; the CRC unit's two events are
their effects outside HALTED. -/
theorem crcRegisterAndEngineAreIndependent : Obligations.CrcRegisterAndEngineAreIndependent := by
  unfold Obligations.CrcRegisterAndEngineAreIndependent
  constructor
  · intro i s c hinit hupdate hreset
    refine (exec_setCrc hinit hupdate hreset c s).trans ?_
    cases exec i s <;> rfl
  · intro s t b h
    rw [exec_crcInit, exec_crcUpdate] at h
    obtain h | h := h <;> obtain ⟨-, rfl⟩ := unlessHalted_cases h <;> rfl

end Sys2Proof.Machine
end

section
/-! The receive front-end and the framing rules (41_framing.md): what an arriving entry does to the queue, what the
engine does with each entry it takes, how validation ends, and one SERVICE on the entries of one whole frame. -/

namespace Sys2Proof.Machine

/-! ## The front-end's events -/

theorem exec_rxByte (b : Byte) (s : State) : exec (.rxByte b) s = .next (rxPush (.byte b) s) := rfl
theorem exec_rxGap (s : State) : exec .rxGap s = .next (rxPush .gap s) := rfl
theorem exec_rxErr (s : State) : exec .rxErr s = .next (rxPush .err s) := rfl

/-- An entry that arrives with room in the queue is appended unmarked (R130). -/
theorem rxPush_room {s : State} (k : RxKind) (h : s.rxq.length < s.cfg.rxqDepth) :
    rxPush k s = { s with rxq := s.rxq ++ [⟨k, false⟩] } := by
  rw [rxPush, pushEntry_room k h]

/-- An entry that arrives at a full queue is lost and marks the newest queued one (R131). -/
theorem rxPush_full {s : State} {q : List RxEntry} {e : RxEntry} (k : RxKind) (hq : s.rxq = q ++ [e])
    (h : s.cfg.rxqDepth ≤ s.rxq.length) : rxPush k s = { s with rxq := q ++ [{ e with lost := true }] } := by
  rw [rxPush, hq, pushEntry_full k (hq ▸ h)]

/-! ## The engine's step in each protocol state (42_dispatch.md R186) -/

theorem engineStep_idle_nil {s : State} (hp : s.pstate = .idle) (hq : s.rxq = []) : engineStep s = none := by
  simp only [engineStep, hp, hq]

theorem engineStep_idle_cons {s : State} {e : RxEntry} {rest : List RxEntry} (hp : s.pstate = .idle)
    (hq : s.rxq = e :: rest) : engineStep s = some (applyLost e (takeInIdle e.kind { s with rxq := rest })) := by
  simp only [engineStep, hp, hq]

theorem engineStep_receiving_cons {s : State} {e : RxEntry} {rest : List RxEntry} (hp : s.pstate = .receiving)
    (hq : s.rxq = e :: rest) :
    engineStep s = some (applyLost e (takeInReceiving e.kind { s with rxq := rest })) := by
  simp only [engineStep, hp, hq]

theorem engineStep_validating {s : State} (hp : s.pstate = .validating) : engineStep s = some (validateStep s) := by
  simp only [engineStep, hp]

theorem engineStep_dispatching {s : State} {r : Request} (hp : s.pstate = .dispatching r) :
    engineStep s = some (functionStep (selectFunction s.cfg r) s) := by
  simp only [engineStep, hp]

theorem engineStep_responding {s : State} {rbuf : List Byte} (hp : s.pstate = .responding rbuf)
    (hready : s.txReady = true) : engineStep s = some (sendResponse rbuf s) := by
  simp only [engineStep, hp, hready, if_true]

/-- RECEIVING takes a byte that fits the frame buffer (R133). -/
theorem engineStep_receiving_byte {s : State} {b : Byte} {lost : Bool} {rest : List RxEntry}
    (hp : s.pstate = .receiving) (hq : s.rxq = ⟨.byte b, lost⟩ :: rest) (hroom : s.fbuf.length < 256) :
    engineStep s = some { s with rxq := rest, fbuf := s.fbuf ++ [b], curBad := s.curBad || lost } := by
  rw [engineStep_receiving_cons hp hq, receiving_take]
  simp only [Config.frameMax, if_pos hroom]

/-- RECEIVING takes a byte beyond FRAME_MAX: it is dropped and poisons the frame (R133). -/
theorem engineStep_receiving_overlong {s : State} {b : Byte} {lost : Bool} {rest : List RxEntry}
    (hp : s.pstate = .receiving) (hq : s.rxq = ⟨.byte b, lost⟩ :: rest) (hfull : 256 ≤ s.fbuf.length) :
    engineStep s = some { s with rxq := rest, curBad := true } := by
  rw [engineStep_receiving_cons hp hq, receiving_take]
  simp only [Config.frameMax, if_neg (Nat.not_lt.mpr hfull)]

/-! ## The end of validation -/

theorem validateStep_malformed {s : State} {c : DropCause} (h : classify s.cfg s.curBad s.fbuf = .malformed c) :
    validateStep s = dropMalformed s := by
  simp only [validateStep, h]

theorem validateStep_ignore {s : State} (h : classify s.cfg s.curBad s.fbuf = .ignore) :
    validateStep s = dropIgnore s := by
  simp only [validateStep, h]

theorem validateStep_accept {s : State} {r : Request} (h : classify s.cfg s.curBad s.fbuf = .accept r) :
    validateStep s = acceptRequest r s := by
  simp only [validateStep, h]

/-- The length check fails exactly for a Read or a Write Single that has not eight bytes and for a supported Write
Multiple that has not nine and its byte count (R144). -/
theorem lengthOk_eq_false_iff {p : Params} {f : List Byte} :
    lengthOk p f = false ↔
      ((byteAt f 1 = 0x03#8 ∨ byteAt f 1 = 0x06#8) ∧ f.length ≠ 8) ∨
        (byteAt f 1 = 0x10#8 ∧ p.fc10Supported = true ∧
          (f.length < 9 ∨ f.length ≠ 9 + (byteAt f 6).toNat)) := by
  rw [← Bool.not_eq_true]
  by_cases h8 : byteAt f 1 = 0x03#8 ∨ byteAt f 1 = 0x06#8
  · have h10 : byteAt f 1 ≠ 0x10#8 := by rintro h; simp [h] at h8
    rw [lengthOk_eight h8, or_iff_left (fun h => h10 h.1), and_iff_right h8]
  by_cases hm : byteAt f 1 = 0x10#8 ∧ p.fc10Supported = true
  · obtain ⟨h10, hp⟩ := hm
    rw [lengthOk_multiple h10 hp, or_iff_right (fun h => h8 h.1), and_iff_right h10, and_iff_right hp]
    omega
  · have hn : selectsNamed p (byteAt f 1) = false :=
      selectsNamed_eq_false_iff.mpr ⟨fun h => h8 (.inl h), fun h => h8 (.inr h), hm⟩
    simp [lengthOk_other hn, h8, ← and_assoc, hm]

section Checks
/-! The checks of R145 in their order: each lemma has the checks before its own passed. -/

variable {p : Params} {f : List Byte}

theorem classify_poisoned : classify p true f = .malformed .poisoned := if_pos rfl

theorem classify_short (h : f.length < 4) : classify p false f = .malformed .short := by
  simp [classify, h]

theorem classify_badCrc (h4 : 4 ≤ f.length) (h : crcOk f = false) : classify p false f = .malformed .crc := by
  simp [classify, Nat.not_lt.mpr h4, h]

theorem classify_otherSlave (h4 : 4 ≤ f.length) (hcrc : crcOk f = true) (h : byteAt f 0 ≠ p.slaveId) :
    classify p false f = .ignore := by
  simp [classify, Nat.not_lt.mpr h4, hcrc, h]

theorem classify_badLength (h4 : 4 ≤ f.length) (hcrc : crcOk f = true) (haddr : byteAt f 0 = p.slaveId)
    (h : lengthOk p f = false) : classify p false f = .malformed .length := by
  simp [classify, Nat.not_lt.mpr h4, hcrc, haddr, h]

end Checks

/-! ## One SERVICE on one frame -/

/-- The state in which an unmarked frame is validated: its bytes in the frame buffer, its entries used up. -/
def frameReceived (f : List Byte) (s : State) : State :=
  { s with rxq := [], fbuf := f, curBad := false, pstate := .validating }

/-- In RECEIVING, SERVICE takes unmarked bytes that fit the frame buffer one by one (R133). -/
theorem serviceStep_takes_bytes {s : State} (bs : List Byte) (q : List RxEntry) (hp : s.pstate = .receiving)
    (ha : s.arrivals = []) (hq : s.rxq = bs.map (⟨.byte ·, false⟩) ++ q) (hlen : s.fbuf.length + bs.length ≤ 256) :
    serviceStep s = serviceStep { s with rxq := q, fbuf := s.fbuf ++ bs } := by
  induction bs generalizing s with
  | nil =>
    obtain rfl : s.rxq = q := hq
    rw [List.append_nil]
  | cons b bs ih =>
    rw [List.length_cons] at hlen
    rw [serviceStep_of_step ha (engineStep_receiving_byte hp hq (by omega)),
      ih (by exact hp) (by exact ha) rfl (by simp only [List.length_append, List.length_singleton]; omega)]
    simp

/-- From IDLE, with no poison pending, SERVICE takes the entries of an unmarked frame up to its validation (R132, R133,
R134). -/
theorem serviceStep_receives_frame {s : State} {f : List Byte} (hp : s.pstate = .idle) (ha : s.arrivals = [])
    (hbad : s.nextBad = false) (hq : s.rxq = frameEntries f) (hne : f ≠ []) (hlen : f.length ≤ 256) :
    serviceStep s = serviceStep (frameReceived f s) := by
  obtain ⟨b, bs, rfl⟩ := List.exists_cons_of_ne_nil hne
  have hfirst := engineStep_idle_cons hp (hq : s.rxq = ⟨.byte b, false⟩ :: _)
  rw [serviceStep_of_step ha hfirst, idle_take,
    serviceStep_takes_bytes bs [⟨.gap, false⟩] rfl (by exact ha) rfl (by simpa [Nat.add_comm] using hlen),
    serviceStep_of_step (by exact ha) (engineStep_receiving_cons rfl rfl), receiving_take]
  simp [frameReceived, hbad]

/-- Where the engine is in IDLE with nothing queued and nothing arriving, SERVICE is at its end (R186). -/
theorem serviceStep_idle {s : State} (hp : s.pstate = .idle) (ha : s.arrivals = []) (hq : s.rxq = []) :
    serviceStep s = s :=
  serviceStep_done (takeArrival_nil ha) (engineStep_idle_nil hp hq)

/-- A function code's meaning is its step where that is enabled (R174). -/
theorem exec_function {i : Instr} {s : State}
    (hi : (∃ a st q, i = .readHolding a st q) ∨ (∃ a tg v, i = .writeSingle a tg v) ∨
      (∃ a st q b d, i = .writeMultiple a st q b d) ∨ ∃ a fc, i = .illegalFunction a fc) :
    exec i s = whenDispatching (functionStep i) s := by
  obtain ⟨a, st, q, rfl⟩ | ⟨a, tg, v, rfl⟩ | ⟨a, st, q, b, d, rfl⟩ | ⟨a, fc, rfl⟩ := hi <;> rfl

/-- In DISPATCHING, with nothing queued and `tx_ready`, SERVICE runs the selected function and sends its response, which
ends it (R174, R180, R186). -/
theorem serviceStep_dispatching {s : State} {r : Request} (hp : s.pstate = .dispatching r) (ha : s.arrivals = [])
    (hq : s.rxq = []) (hready : s.txReady = true) :
    ∃ (u : State) (rbuf : List Byte), exec (selectFunction s.cfg r) s = .next u ∧ u.pstate = .responding rbuf ∧
      u.tx = s.tx ∧ u.responsesSent = s.responsesSent ∧ serviceStep s = sendResponse rbuf u := by
  have hi := selectFunction_is_function s.cfg r
  have hrun := engineStep_dispatching hp
  obtain ⟨payload, exc, w, hu, -⟩ := functionStep_shape hi (s := s) rfl
  refine ⟨_, crcAppend payload, (exec_function hi).trans (whenDispatching_next hp), ?_⟩
  rw [hu] at hrun ⊢
  refine ⟨rfl, rfl, rfl, ?_⟩
  calc serviceStep s = serviceStep (emitResponse payload exc (storeWords w s)) := serviceStep_of_step ha hrun
    _ = serviceStep (sendResponse (crcAppend payload) (emitResponse payload exc (storeWords w s))) :=
      serviceStep_of_step ha (engineStep_responding rfl hready)
    _ = sendResponse (crcAppend payload) (emitResponse payload exc (storeWords w s)) := serviceStep_idle rfl ha hq

/-! ## The obligations -/

/-- Settles O35: SERVICE takes the frame's entries up to its validation, and each verdict then ends in IDLE with an
empty queue, an accepted request by way of its function and its response. -/
theorem serviceServesOneFrame : Obligations.ServiceServesOneFrame := by
  unfold Obligations.ServiceServesOneFrame
  intro s f hp ha hready hbad hq hne hlen ended
  have hh : s.pstate ≠ .halted := by simp [hp]
  have hservice : exec .service s = .next (serviceStep (validateStep (frameReceived f s))) := by
    rw [exec_service hh, serviceStep_receives_frame hp ha hbad hq hne hlen,
      serviceStep_of_step (s := frameReceived f s) ha (engineStep_validating rfl)]
  cases hc : classify s.cfg false f with
  | malformed c =>
    rw [validateStep_malformed (s := frameReceived f s) hc, serviceStep_idle rfl (by exact ha) rfl] at hservice
    simpa [dropMalformed, frameReceived, ended, hp] using hservice
  | ignore =>
    rw [validateStep_ignore (s := frameReceived f s) hc, serviceStep_idle rfl (by exact ha) rfl] at hservice
    simpa [dropIgnore, frameReceived, ended, hp] using hservice
  | accept r =>
    rw [validateStep_accept (s := frameReceived f s) hc] at hservice
    obtain ⟨u, rbuf, hu, hresp, htx, hsent, hend⟩ :=
      serviceStep_dispatching (s := acceptRequest r (frameReceived f s)) rfl (by exact ha) rfl (by exact hready)
    refine ⟨selectFunction s.cfg r, u, rbuf, decode_frame_eq_ok_iff.mpr ⟨hlen, r, hc, rfl⟩, hu, hresp, ?_⟩
    rw [hservice, hend, sendResponse, htx, hsent]
    rfl

/-- Settles O16: the queue's newest entry takes the mark, whichever event the arriving entry came from. -/
theorem overflowMarksTheNewestEntry : Obligations.OverflowMarksTheNewestEntry := by
  unfold Obligations.OverflowMarksTheNewestEntry
  intro s q e hq hfull
  simp only [exec_rxByte, exec_rxGap, exec_rxErr, rxPush_full _ hq hfull, implies_true, and_self]

/-- Settles O19: the checks of O18 all passed, the frame is accepted, and its request's fields are the frame's bytes
wherever it has them. -/
theorem acceptedFrameBecomesTheRequest : Obligations.AcceptedFrameBecomesTheRequest := by
  unfold Obligations.AcceptedFrameBecomesTheRequest
  intro s hp hbad h4 hcrc haddr hlen
  rw [← lengthOk_eq_false_iff, Bool.not_eq_false] at hlen
  have haccept : classify s.cfg s.curBad s.fbuf = .accept (parseRequest s.fbuf) :=
    classify_eq_accept_iff.mpr ⟨hbad, h4, hcrc, haddr, hlen, rfl⟩
  refine ⟨parseRequest s.fbuf, by rw [engineStep_validating hp, validateStep_accept haccept, acceptRequest], rfl, rfl,
    rfl, fun h6 => if_pos h6, fun h8 => if_pos h8, fun h9 => ?_⟩
  have hdata : (parseRequest s.fbuf).data = (s.fbuf.drop 7).take (s.fbuf.length - 9) := if_pos h9
  rw [hdata]
  refine ⟨if_pos h9, ?_, fun j hj => byteAt_slice hj⟩
  rw [List.length_take, List.length_drop]
  omega

/-- Settles O20: validation, a function's step and the response leave the queue alone. -/
theorem busyEngineTakesNoEntry : Obligations.BusyEngineTakesNoEntry := by
  unfold Obligations.BusyEngineTakesNoEntry
  intro s t h hidle hreceiving
  obtain ⟨hp, -⟩ | ⟨hp, -⟩ | ⟨-, rfl⟩ | ⟨r, -, rfl⟩ | ⟨rbuf, -, -, rfl⟩ := engineStep_cases h
  · exact absurd hp hidle
  · exact absurd hp hreceiving
  · exact validateStep_rxq s
  · exact functionStep_rxq _ s
  · exact sendResponse_rxq rbuf s

/-- Settles O15: with room the push appends, whichever event the entry came from. -/
theorem frontEndEventsAppendAtTheTail : Obligations.FrontEndEventsAppendAtTheTail := by
  unfold Obligations.FrontEndEventsAppendAtTheTail
  intro s hroom
  simp only [exec_rxByte, exec_rxGap, exec_rxErr, rxPush_room _ hroom, implies_true, and_self]

/-- Settles O17: what an entry does in IDLE and in RECEIVING, kind by kind. -/
theorem takingAnEntryFollowsTheFramingRules : Obligations.TakingAnEntryFollowsTheFramingRules := by
  unfold Obligations.TakingAnEntryFollowsTheFramingRules
  intro s lost rest
  refine ⟨fun b hp hq => ?_, fun hp hq => ?_, fun hp hq => ?_, fun b => engineStep_receiving_byte,
    fun b => engineStep_receiving_overlong, fun hp hq => ?_, fun hp hq => ?_⟩
  · rw [engineStep_idle_cons hp hq, idle_take]
  · rw [engineStep_idle_cons hp hq, idle_take]
  · rw [engineStep_idle_cons hp hq, idle_take]
  · rw [engineStep_receiving_cons hp hq, receiving_take]
  · rw [engineStep_receiving_cons hp hq, receiving_take]

/-- Settles O18: each check that fails after those before it passed gives its verdict, and the verdict its drop. -/
theorem validationDropsInOrder : Obligations.ValidationDropsInOrder := by
  unfold Obligations.ValidationDropsInOrder
  intro s hp malformed
  have drop {c : DropCause} (h : classify s.cfg s.curBad s.fbuf = .malformed c) : engineStep s = some malformed := by
    rw [engineStep_validating hp, validateStep_malformed h]
    rfl
  refine ⟨fun hbad => drop (hbad ▸ classify_poisoned), fun hbad h => drop (hbad ▸ classify_short h),
    fun hbad h4 h => drop (hbad ▸ classify_badCrc h4 h), fun hbad h4 hcrc h => ?_,
    fun hbad h4 hcrc haddr h => drop (hbad ▸ classify_badLength h4 hcrc haddr (lengthOk_eq_false_iff.mpr h))⟩
  rw [engineStep_validating hp, validateStep_ignore (hbad ▸ classify_otherSlave h4 hcrc h)]
  rfl

end Sys2Proof.Machine
end

section
/-! The function codes in DISPATCHING (42_dispatch.md R160 to R175): what each one's checks answer, what it then does to
the state, and which of them a request selects. -/

namespace Sys2Proof.Machine

/-! ## Where a function code has a step -/

theorem whenDispatching_halted {f : State → State} {s : State} (h : s.pstate = .halted) :
    whenDispatching f s = .refused .halted := by
  simp only [whenDispatching, h]

/-- Between events the step is not enabled (R174, log 21). -/
theorem whenDispatching_elsewhere {f : State → State} {s : State}
    (h : s.pstate = .idle ∨ s.pstate = .receiving ∨ s.pstate = .validating ∨
      ∃ rbuf : List Byte, s.pstate = .responding rbuf) : whenDispatching f s = .refused .notDispatching := by
  obtain h | h | h | ⟨rbuf, h⟩ := h <;> simp only [whenDispatching, h]

/-! ## The checks -/

/-- The check of a range of addresses that all must be `ok`: its end, then each address (R161, R170). -/
def checkRange (ok : Nat → Bool) (start qty : Nat) : Option ExceptionCode :=
  if !rangeFits start qty then some .illegalDataAddress
  else if (addressRange start qty).any (fun a => !ok a) then some .illegalDataAddress
  else none

theorem checkWrRange_eq (p : Params) (start qty : Nat) : checkWrRange p start qty = checkRange (writable p) start qty :=
  rfl

theorem checkRange_reject {ok : Nat → Bool} {start qty : Nat}
    (h : 0xFFFF < start + qty - 1 ∨ ∃ j : Nat, j < qty ∧ ok (start + j) = false) :
    checkRange ok start qty = some .illegalDataAddress := by
  unfold checkRange
  split_ifs with hfit hany
  · rfl
  · rfl
  · obtain hend | ⟨j, hj, hbad⟩ := h
    · simp [rangeFits, Nat.not_le.mpr hend] at hfit
    · exact absurd (List.any_eq_true.mpr ⟨start + j, mem_addressRange.mpr ⟨j, hj, rfl⟩, by simp [hbad]⟩) hany

theorem checkRange_pass {ok : Nat → Bool} {start qty : Nat} (hend : start + qty - 1 ≤ 0xFFFF)
    (h : ∀ j : Nat, j < qty → ok (start + j) = true) : checkRange ok start qty = none := by
  have hany : (addressRange start qty).any (fun a => !ok a) = false := by
    rw [List.any_eq_false]
    intro a ha
    obtain ⟨j, hj, rfl⟩ := mem_addressRange.mp ha
    simp [h j hj]
  simp [checkRange, rangeFits, hend, hany]

/-- A range whose last address is mapped ends within the register map (R51). -/
theorem range_end_le_of_mapped {start qty : Nat} (hq : 1 ≤ qty)
    (h : ∀ j : Nat, j < qty → mapped (start + j) = true) : start + qty - 1 ≤ 0xFFFF := by
  have hlast := mapped_lt (h (qty - 1) (by omega))
  omega

theorem checkRead_badQuantity {start qty : Nat} (h : qty < 1 ∨ 125 < qty) :
    checkRead start qty = some .illegalDataValue := if_pos h

/-- With a legal quantity the range decides (R161). -/
theorem checkRead_eq_checkRange {start qty : Nat} (h1 : 1 ≤ qty) (h125 : qty ≤ 125) :
    checkRead start qty = checkRange mapped start qty := if_neg (by simp only [Config.qtyMaxRd]; omega)

theorem checkWrite1_notWritable {p : Params} {a : Nat} {v : Word} (h : writable p a = false) :
    checkWrite1 p a v = some .illegalDataAddress := by simp [checkWrite1, h]

theorem checkWrite1_illegal {p : Params} {a : Nat} {v : Word} (hw : writable p a = true) (h : legal p a v = false) :
    checkWrite1 p a v = some .illegalDataValue := by simp [checkWrite1, hw, h]

theorem checkWrite1_pass {p : Params} {a : Nat} {v : Word} (hw : writable p a = true) (h : legal p a v = true) :
    checkWrite1 p a v = none := by simp [checkWrite1, hw, h]

section MultipleChecks
/-! The checks of R168 in their order: each lemma has the checks before its own passed. -/

variable {p : Params} {start qty bcount : Nat} {data : List Byte}

theorem checkWrCount_eq_none (h : ¬(qty < 1 ∨ 123 < qty ∨ bcount ≠ 2 * qty)) : checkWrCount qty bcount = none :=
  if_neg h

theorem checkWriteMultiple_badCount (h : qty < 1 ∨ 123 < qty ∨ bcount ≠ 2 * qty) :
    checkWriteMultiple p start qty bcount data = some .illegalDataValue := by
  have hc : checkWrCount qty bcount = some .illegalDataValue := if_pos h
  simp only [checkWriteMultiple, hc]

theorem checkWriteMultiple_badRange (hcount : checkWrCount qty bcount = none)
    (h : checkRange (writable p) start qty = some .illegalDataAddress) :
    checkWriteMultiple p start qty bcount data = some .illegalDataAddress := by
  simp only [checkWriteMultiple, hcount, checkWrRange_eq, h]

/-- With a legal count and range the values decide (R170). -/
theorem checkWriteMultiple_eq_checkWrValues (hcount : checkWrCount qty bcount = none)
    (hrange : checkRange (writable p) start qty = none) :
    checkWriteMultiple p start qty bcount data = checkWrValues p (writePairs start qty data) := by
  simp only [checkWriteMultiple, hcount, checkWrRange_eq, hrange]

theorem checkWrValues_reject (h : ∃ j : Nat, j < qty ∧ legal p (start + j) (valueAt data j) = false) :
    checkWrValues p (writePairs start qty data) = some .illegalDataValue := by
  obtain ⟨j, hj, hbad⟩ := h
  exact if_pos (List.any_eq_true.mpr ⟨_, mem_writePairs.mpr ⟨j, hj, rfl⟩, by simp [hbad]⟩)

theorem checkWrValues_pass (h : ∀ j : Nat, j < qty → legal p (start + j) (valueAt data j) = true) :
    checkWrValues p (writePairs start qty data) = none := by
  refine if_neg fun hany => ?_
  obtain ⟨w, hw, hbad⟩ := List.any_eq_true.mp hany
  obtain ⟨j, hj, rfl⟩ := mem_writePairs.mp hw
  simp [h j hj] at hbad

end MultipleChecks

/-! ## Responses -/

/-- An exception changes nothing but `pstate` (R175, R179). -/
theorem raiseModbus_eq (addr fc : Byte) (code : ExceptionCode) (s : State) :
    raiseModbus addr fc code s = { s with pstate := .responding (crcAppend [addr, fc ||| 0x80#8, code.byte]) } := by
  simp [raiseModbus, emitResponse]

/-- A response refreshes liveness when an accepted frame did not (R146, R179). -/
theorem respond_eq (payload : List Byte) (s : State) :
    respond payload s = { s with
      pstate := .responding (crcAppend payload)
      lastCommMs := if s.cfg.livenessOnException then s.lastCommMs else s.now } := by
  cases h : s.cfg.livenessOnException <;> simp [respond, emitResponse, h]

/-- A response's bytes stand at the front of its frame. -/
theorem byteAt_crcAppend {m : List Byte} {i : Nat} (h : i < m.length) : byteAt (crcAppend m) i = byteAt m i :=
  List.getD_append m _ 0#8 i h

/-! ## What each function code answers in DISPATCHING -/

section Dispatching

variable {s : State} {r : Request} (hp : s.pstate = .dispatching r)

include hp

theorem exec_readHolding_reject {addr : Byte} {start qty : Word} {code : ExceptionCode}
    (h : checkRead start.toNat qty.toNat = some code) :
    exec (.readHolding addr start qty) s = .next (raiseModbus addr 0x03#8 code s) := by
  refine (whenDispatching_next hp).trans (congrArg _ ?_)
  simp only [readHoldingStep, h]

theorem exec_readHolding_accept {addr : Byte} {start qty : Word} (h : checkRead start.toNat qty.toNat = none) :
    exec (.readHolding addr start qty) s =
      .next (respond (readResponse addr qty (memRead s.reg start.toNat qty.toNat)) s) := by
  refine (whenDispatching_next hp).trans (congrArg _ ?_)
  simp only [readHoldingStep, h]

theorem exec_writeSingle_reject {addr : Byte} {target value : Word} {code : ExceptionCode}
    (h : checkWrite1 s.cfg target.toNat value = some code) :
    exec (.writeSingle addr target value) s = .next (raiseModbus addr 0x06#8 code s) := by
  refine (whenDispatching_next hp).trans (congrArg _ ?_)
  simp only [writeSingleStep, h]

theorem exec_writeSingle_accept {addr : Byte} {target value : Word}
    (h : checkWrite1 s.cfg target.toNat value = none) :
    exec (.writeSingle addr target value) s =
      .next (respond ([addr, 0x06#8] ++ wordBytes target ++ wordBytes value)
        (storeWords [(target.toNat, value)] s)) := by
  refine (whenDispatching_next hp).trans (congrArg _ ?_)
  simp only [writeSingleStep, h]

theorem exec_writeMultiple_reject {addr bcount : Byte} {start qty : Word} {data : List Byte} {code : ExceptionCode}
    (h : checkWriteMultiple s.cfg start.toNat qty.toNat bcount.toNat data = some code) :
    exec (.writeMultiple addr start qty bcount data) s = .next (raiseModbus addr 0x10#8 code s) := by
  refine (whenDispatching_next hp).trans (congrArg _ ?_)
  simp only [writeMultipleStep, h]

theorem exec_writeMultiple_accept {addr bcount : Byte} {start qty : Word} {data : List Byte}
    (h : checkWriteMultiple s.cfg start.toNat qty.toNat bcount.toNat data = none) :
    exec (.writeMultiple addr start qty bcount data) s =
      .next (respond ([addr, 0x10#8] ++ wordBytes start ++ wordBytes qty)
        (storeWords (writePairs start.toNat qty.toNat data) s)) := by
  refine (whenDispatching_next hp).trans (congrArg _ ?_)
  simp only [writeMultipleStep, h]

end Dispatching

/-! ## The emergency-stop latch after a request's writes -/

/-- `FIELD_MAP` gives one address alone the name GLOBAL_ESTOP (R62). -/
theorem globalEstop_unique {p : Params} (hp : paramsOk p = true) {a b : Nat}
    (ha : nameAt p a = some .globalEstop) (hb : nameAt p b = some .globalEstop) : a = b := by
  have hone : p.fieldMap.countP (fun e => e.name == .globalEstop) = 1 := by
    simp only [paramsOk, fieldMapOk, Bool.and_eq_true, beq_iff_eq] at hp
    exact hp.2.1.1.2
  rw [List.countP_eq_length_filter, List.length_eq_one_iff] at hone
  obtain ⟨x, hx⟩ := hone
  have entry {c : Nat} (hc : nameAt p c = some .globalEstop) : x.addr = c := by
    obtain ⟨e, he, hname⟩ := Option.map_eq_some_iff.mp hc
    have hmem : e ∈ p.fieldMap.filter (fun e => e.name == .globalEstop) :=
      List.mem_filter.mpr ⟨List.mem_of_find?_eq_some he, by simp [hname]⟩
    rw [hx, List.mem_singleton] at hmem
    simpa [hmem] using List.find?_some he
  exact (entry ha).symm.trans (entry hb)

/-- Writes elsewhere leave the latch alone (R167). -/
theorem foldl_estopAfterWrite_elsewhere {p : Params} {estopIn : Bool} {ws : List (Nat × Word)}
    (h : ∀ w ∈ ws, nameAt p w.1 ≠ some .globalEstop) (e : Bool) : ws.foldl (estopAfterWrite p estopIn) e = e := by
  induction ws with
  | nil => rfl
  | cons w ws ih =>
    have hw : estopAfterWrite p estopIn e w = e := if_neg (h w (by simp))
    rw [List.foldl_cons, hw, ih fun x hx => h x (by simp [hx])]

/-- Of writes at distinct addresses the one to GLOBAL_ESTOP decides (R167). -/
theorem foldl_estopAfterWrite_mem {p : Params} (hp : paramsOk p = true) {estopIn : Bool} {ws : List (Nat × Word)}
    (hd : (ws.map Prod.fst).Nodup) {w : Nat × Word} (hw : w ∈ ws) (hn : nameAt p w.1 = some .globalEstop) (e : Bool) :
    ws.foldl (estopAfterWrite p estopIn) e = if w.2 = 1#16 then true else if estopIn then e else false := by
  induction ws with
  | nil => simp at hw
  | cons x ws ih =>
    rw [List.map_cons, List.nodup_cons] at hd
    obtain ⟨hx, hd⟩ := hd
    rw [List.foldl_cons]
    obtain rfl | hw := List.mem_cons.mp hw
    · rw [foldl_estopAfterWrite_elsewhere fun y hy hny =>
        hx (globalEstop_unique hp hny hn ▸ List.mem_map_of_mem hy)]
      exact if_pos hn
    · have hxe : estopAfterWrite p estopIn e x = e :=
        if_neg fun hnx : nameAt p x.1 = some .globalEstop =>
          hx (globalEstop_unique hp hnx hn ▸ List.mem_map_of_mem hw)
      rw [hxe, ih hd hw]

/-! ## The obligations -/

/-- Settles O22: `selectFunction` is the map of R87, and what it selects always answers. -/
theorem dispatchingRunsTheSelectedFunction : Obligations.DispatchingRunsTheSelectedFunction := by
  unfold Obligations.DispatchingRunsTheSelectedFunction
  intro s r hp
  have hi := selectFunction_is_function s.cfg r
  obtain ⟨payload, exc, w, ht, -⟩ := functionStep_shape hi (s := s) rfl
  refine ⟨fun h => ?_, fun h => ?_, fun h h10 => ?_, selectFunction_illegalFunction, _, crcAppend payload,
    (exec_function hi).trans (whenDispatching_next hp), engineStep_dispatching hp, ?_⟩
  · simp [selectFunction, h]
  · simp [selectFunction, h]
  · simp [selectFunction, h, h10]
  · rw [ht]
    rfl

/-- Settles O23: mapped addresses lie within the register map, so every check of the read passes. -/
theorem readHoldingAnswersTheWords : Obligations.ReadHoldingAnswersTheWords := by
  unfold Obligations.ReadHoldingAnswersTheWords
  intro s r addr start qty hp h1 h125 hmapped
  have hcheck := (checkRead_eq_checkRange h1 h125).trans
    (checkRange_pass (range_end_le_of_mapped h1 hmapped) hmapped)
  rw [exec_readHolding_accept hp hcheck, respond_eq, readResponse, memRead, addressRange, List.map_map,
    List.flatMap_map]
  rfl

/-- Settles O24: the quantity, then the range, then the response. -/
theorem readHoldingRejectsInOrder : Obligations.ReadHoldingRejectsInOrder := by
  unfold Obligations.ReadHoldingRejectsInOrder
  intro s r addr start qty hp
  refine ⟨fun hq => ?_, fun h1 h125 hrange => ?_, fun h1 h125 hend hmapped => ?_⟩
  · rw [exec_readHolding_reject hp (checkRead_badQuantity hq), raiseModbus_eq]
    rfl
  · rw [exec_readHolding_reject hp ((checkRead_eq_checkRange h1 h125).trans (checkRange_reject hrange)),
      raiseModbus_eq]
    rfl
  · have hcheck := (checkRead_eq_checkRange h1 h125).trans (checkRange_pass hend hmapped)
    exact ⟨_, _, exec_readHolding_accept hp hcheck, rfl, byteAt_crcAppend (by simp [readResponse])⟩

/-- Settles O25: a writable address lies in the register map, where the one word is stored. -/
theorem writeSingleStoresAndEchoes : Obligations.WriteSingleStoresAndEchoes := by
  unfold Obligations.WriteSingleStoresAndEchoes
  intro s r addr target value hp hw hl hwf
  refine ⟨s.reg.write target.toNat value, ?_, Memory.wf_write hwf (Nat.le_of_lt_succ target.isLt) value, ?_,
    fun a ha => ?_⟩
  · rw [exec_writeSingle_accept hp (checkWrite1_pass hw hl), respond_eq]
    rfl
  · rw [Memory.read_write hwf, if_pos rfl]
  · rw [Memory.read_write hwf, if_neg ha]

/-- Settles O26: the address, then the value, then the echo. -/
theorem writeSingleRejectsInOrder : Obligations.WriteSingleRejectsInOrder := by
  unfold Obligations.WriteSingleRejectsInOrder
  intro s r addr target value hp
  refine ⟨fun hw => ?_, fun hw hl => ?_, fun hw hl => ?_⟩
  · rw [exec_writeSingle_reject hp (checkWrite1_notWritable hw), raiseModbus_eq]
    rfl
  · rw [exec_writeSingle_reject hp (checkWrite1_illegal hw hl), raiseModbus_eq]
    rfl
  · exact ⟨_, _, exec_writeSingle_accept hp (checkWrite1_pass hw hl), rfl, byteAt_crcAppend (by simp)⟩

/-- Settles O27: the pairs are written at distinct addresses of the register map, and one of them at most names
GLOBAL_ESTOP. -/
theorem writeMultipleStoresEveryWord : Obligations.WriteMultipleStoresEveryWord := by
  unfold Obligations.WriteMultipleStoresEveryWord
  intro s r addr start qty bcount data hp hparams hwf h1 h123 hcount hwords
  have hmapped (j : Nat) (hj : j < qty.toNat) : mapped (start.toNat + j) = true := writable_mapped (hwords j hj).1
  have hcheck : checkWriteMultiple s.cfg start.toNat qty.toNat bcount.toNat data = none := by
    rw [checkWriteMultiple_eq_checkWrValues (checkWrCount_eq_none (by omega))
      (checkRange_pass (range_end_le_of_mapped h1 hmapped) fun j hj => (hwords j hj).1)]
    exact checkWrValues_pass fun j hj => (hwords j hj).2
  have hle : ∀ w ∈ writePairs start.toNat qty.toNat data, w.1 ≤ Config.lastAddress := by
    intro w hw
    obtain ⟨j, hj, rfl⟩ := mem_writePairs.mp hw
    have := mapped_lt (hmapped j hj)
    simp only [Config.lastAddress]
    omega
  have hd := writePairs_nodup start.toNat qty.toNat data
  refine ⟨memWrite s.reg (writePairs start.toNat qty.toNat data),
    (writePairs start.toNat qty.toNat data).foldl (estopAfterWrite s.cfg s.estopIn) s.estop, ?_,
    memWrite_wf hwf hle, fun j hj => ?_, fun a ha => ?_, fun j hj hn => ?_, fun hn => ?_⟩
  · rw [exec_writeMultiple_accept hp hcheck, respond_eq]
    rfl
  · exact memWrite_read_mem hwf hle hd (mem_writePairs.mpr ⟨j, hj, rfl⟩)
  · refine memWrite_read_other hwf hle fun w hw => ?_
    obtain ⟨j, hj, rfl⟩ := mem_writePairs.mp hw
    change start.toNat + j ≠ a
    omega
  · exact foldl_estopAfterWrite_mem hparams hd (mem_writePairs.mpr ⟨j, hj, rfl⟩) hn s.estop
  · refine foldl_estopAfterWrite_elsewhere (fun w hw => ?_) s.estop
    obtain ⟨j, hj, rfl⟩ := mem_writePairs.mp hw
    exact hn j hj

/-- Settles O28: the count, then the range, then the values, then the response. -/
theorem writeMultipleRejectsInOrder : Obligations.WriteMultipleRejectsInOrder := by
  unfold Obligations.WriteMultipleRejectsInOrder
  intro s r addr start qty bcount data hp countBad rangeBad valueBad
  have values (hc : ¬countBad) (hr : ¬rangeBad) : checkWriteMultiple s.cfg start.toNat qty.toNat bcount.toNat data =
      checkWrValues s.cfg (writePairs start.toNat qty.toNat data) := by
    simp only [rangeBad, not_or, not_exists, not_and, Bool.not_eq_false, Nat.not_lt] at hr
    exact checkWriteMultiple_eq_checkWrValues (checkWrCount_eq_none hc) (checkRange_pass hr.1 hr.2)
  refine ⟨fun hc => ?_, fun hc hr => ?_, fun hc hr hv => ?_, fun hc hr hv => ?_⟩
  · rw [exec_writeMultiple_reject hp (checkWriteMultiple_badCount hc), raiseModbus_eq]
    rfl
  · rw [exec_writeMultiple_reject hp (checkWriteMultiple_badRange (checkWrCount_eq_none hc) (checkRange_reject hr)),
      raiseModbus_eq]
    rfl
  · rw [exec_writeMultiple_reject hp ((values hc hr).trans (checkWrValues_reject hv)), raiseModbus_eq]
    rfl
  · simp only [valueBad, not_exists, not_and, Bool.not_eq_false] at hv
    exact ⟨_, _, exec_writeMultiple_accept hp ((values hc hr).trans (checkWrValues_pass hv)), rfl,
      byteAt_crcAppend (by simp)⟩

/-- Settles O29: the exception is ILLEGAL_FUNCTION's whole step, and a frame that selects it has no length check of its
own. -/
theorem illegalFunctionAnswersExceptionOne : Obligations.IllegalFunctionAnswersExceptionOne := by
  unfold Obligations.IllegalFunctionAnswersExceptionOne
  constructor
  · intro s r addr fc hp
    refine (whenDispatching_next hp).trans (congrArg _ ?_)
    rw [illegalFunctionStep, raiseModbus_eq]
    rfl
  · intro p f hfc h4 hcrc haddr
    exact ⟨classify_eq_accept_iff.mpr ⟨rfl, h4, hcrc, haddr, lengthOk_other hfc, rfl⟩,
      selectFunction_illegalFunction hfc⟩

/-- Settles O30: the four function codes share their guard. -/
theorem functionCodesNeedDispatching : Obligations.FunctionCodesNeedDispatching := by
  unfold Obligations.FunctionCodesNeedDispatching
  intro s addr fc bcount start qty data i hi
  have hexec : exec i s = whenDispatching (functionStep i) s := by
    obtain rfl | rfl | rfl | rfl := hi <;> rfl
  rw [hexec]
  exact ⟨whenDispatching_halted, whenDispatching_elsewhere⟩

end Sys2Proof.Machine
end

section
/-! What the engine's steps and a whole SERVICE keep, where a SERVICE ends, and the balance of requests and responses
(42_dispatch.md R180, R181, R186, R187). -/

namespace Sys2Proof.Machine

/-! ## From each step to the whole SERVICE -/

/-- Bringing the next arrival nearer changes the list of arrivals alone. -/
theorem countArrivals_only_arrivals (s : State) :
    countArrivals s = { s with arrivals := (countArrivals s).arrivals } := by
  unfold countArrivals
  split <;> rfl

/-- An arrival changes the queue and the list of arrivals alone. -/
theorem takeArrival_only_queue {s t : State} (h : takeArrival s = some t) :
    t = { s with rxq := t.rxq, arrivals := t.arrivals } := by
  obtain ⟨x, rest, -, -, rfl⟩ := takeArrival_cases h
  rfl

/-- A reflexive and transitive relation that every engine step respects, and every change of the queue and the arrivals,
holds between the ends of a SERVICE (R186). -/
theorem serviceStep_relates {R : State → State → Prop} (hrefl : ∀ s, R s s) (htrans : ∀ s t u, R s t → R t u → R s u)
    (hqueue : ∀ s q a, R s { s with rxq := q, arrivals := a }) (hstep : ∀ s t, engineStep s = some t → R s t)
    (s : State) : R s (serviceStep s) := by
  refine serviceLoop_keeps (P := R s) (fun t u ht hu => ?_) (fun t u ht _ hu => ?_) _ s (hrefl s)
  · rw [takeArrival_only_queue hu]
    exact htrans _ _ _ ht (hqueue t _ _)
  · rw [countArrivals_only_arrivals]
    exact htrans _ _ _ (htrans _ _ _ ht (hstep t u hu)) (hqueue u u.rxq _)

/-! ## Where a SERVICE ends -/

theorem engineStep_receiving_nil {s : State} (hp : s.pstate = .receiving) (hq : s.rxq = []) : engineStep s = none := by
  simp only [engineStep, hp, hq]

/-- RESPONDING waits for `tx_ready` (R180). -/
theorem engineStep_responding_wait {s : State} {rbuf : List Byte} (hp : s.pstate = .responding rbuf)
    (hwait : s.txReady = false) : engineStep s = none := by
  simp only [engineStep, hp, hwait, Bool.false_eq_true, if_false]

/-- Outside HALTED the engine stands still only where a SERVICE ends (R186's table). -/
theorem serviceEnd_of_engineStep_none {s : State} (hh : s.pstate ≠ .halted) (h : engineStep s = none) :
    serviceEnd s = true := by
  cases hp : s.pstate with
  | idle =>
    cases hq : s.rxq with
    | nil => simp [serviceEnd, hp, hq]
    | cons e rest => simp [engineStep_idle_cons hp hq] at h
  | receiving =>
    cases hq : s.rxq with
    | nil => simp [serviceEnd, hp, hq]
    | cons e rest => simp [engineStep_receiving_cons hp hq] at h
  | validating => simp [engineStep_validating hp] at h
  | dispatching r => simp [engineStep_dispatching hp] at h
  | responding rbuf =>
    cases hready : s.txReady with
    | false => simp [serviceEnd, hp, hready]
    | true => simp [engineStep_responding hp hready] at h
  | halted => exact absurd hp hh

/-- A SERVICE does not enter HALTED (R21, R187). -/
theorem serviceStep_not_halted {s : State} (hh : s.pstate ≠ .halted) : (serviceStep s).pstate ≠ .halted :=
  serviceStep_relates (R := fun s t => s.pstate ≠ .halted → t.pstate ≠ .halted) (fun _ h => h)
    (fun _ _ _ hst htu h => htu (hst h)) (fun _ _ _ h => h) (fun _ _ ht _ => (engineStep_arrivals ht).2) s hh

/-- A SERVICE ends where no arrival is due and no engine step is enabled (R186). -/
theorem serviceStep_stops (s : State) : takeArrival (serviceStep s) = none ∧ engineStep (serviceStep s) = none :=
  serviceLoop_ends _ s (Nat.lt_succ_self _)

theorem serviceEnd_serviceStep {s : State} (hh : s.pstate ≠ .halted) : serviceEnd (serviceStep s) = true :=
  serviceEnd_of_engineStep_none (serviceStep_not_halted hh) (serviceStep_stops s).2

/-! ## The part of the state that the engine does not write -/

/-- A state without the elements the engine writes (R186). -/
def forgetEngine (s : State) : State :=
  { s with
    pstate := .idle, fbuf := [], curBad := false, nextBad := false, requestsReceived := 0#16, responsesSent := 0#16
    crcErrors := 0#16, rxq := [], lastCommMs := 0#32, estop := false, reg := [], arrivals := [], tx := [] }

theorem forgetEngine_eq_iff {s t : State} :
    forgetEngine t = forgetEngine s ↔
      t.cfg = s.cfg ∧ t.crc = s.crc ∧ t.timeoutErrors = s.timeoutErrors ∧ t.lastTickMs = s.lastTickMs ∧
      t.commFault = s.commFault ∧ t.wdtFault = s.wdtFault ∧ t.now = s.now ∧ t.unitState = s.unitState ∧
      t.estopIn = s.estopIn ∧ t.txReady = s.txReady ∧ t.initOk = s.initOk ∧ t.script = s.script := by
  simp [forgetEngine]

/-- No engine step writes any other element. -/
theorem engineStep_forgetEngine {s t : State} (h : engineStep s = some t) : forgetEngine t = forgetEngine s := by
  obtain ⟨-, e, rest, -, rfl⟩ | ⟨-, e, rest, -, rfl⟩ | ⟨-, rfl⟩ | ⟨r, -, rfl⟩ | ⟨rbuf, -, -, rfl⟩ := engineStep_cases h
  · rw [idle_take]
    cases e.kind <;> rfl
  · rw [receiving_take]
    cases e.kind <;> rfl
  · obtain ⟨_, -, hv⟩ | ⟨-, hv⟩ | ⟨_, -, hv⟩ := validateStep_cases s <;> rw [hv] <;> rfl
  · obtain ⟨payload, exc, w, ht, -⟩ := functionStep_shape (selectFunction_is_function s.cfg r) (s := s) rfl
    rw [ht]
    rfl
  · rfl

theorem serviceStep_forgetEngine (s : State) : forgetEngine (serviceStep s) = forgetEngine s :=
  serviceStep_relates (R := fun s t => forgetEngine t = forgetEngine s) (fun _ => rfl) (fun _ _ _ h h' => h'.trans h)
    (fun _ _ _ => rfl) (fun _ _ => engineStep_forgetEngine) s

/-- An engine step leaves the liveness timestamp alone or sets it to the time (R146, R179). -/
theorem engineStep_lastCommMs {s t : State} (h : engineStep s = some t) :
    t.lastCommMs = s.lastCommMs ∨ t.lastCommMs = s.now := by
  obtain ⟨-, e, rest, -, rfl⟩ | ⟨-, e, rest, -, rfl⟩ | ⟨-, rfl⟩ | ⟨r, -, rfl⟩ | ⟨rbuf, -, -, rfl⟩ := engineStep_cases h
  · rw [idle_take]
    cases e.kind <;> exact .inl rfl
  · rw [receiving_take]
    cases e.kind <;> exact .inl rfl
  · obtain ⟨_, -, hv⟩ | ⟨-, hv⟩ | ⟨_, -, hv⟩ := validateStep_cases s <;> rw [hv]
    · exact .inl rfl
    · exact .inl rfl
    · exact (ite_eq_or_eq _ _ _).symm
  · obtain ⟨payload, exc, w, ht, -⟩ := functionStep_shape (selectFunction_is_function s.cfg r) (s := s) rfl
    rw [ht]
    exact (ite_eq_or_eq _ _ _).symm
  · exact .inl rfl

/-- The time keeps still during a SERVICE, so the timestamp takes no other value in it (R186). -/
theorem serviceStep_lastCommMs (s : State) :
    (serviceStep s).lastCommMs = s.lastCommMs ∨ (serviceStep s).lastCommMs = s.now := by
  refine (serviceStep_relates
    (R := fun s t => t.now = s.now ∧ (t.lastCommMs = s.lastCommMs ∨ t.lastCommMs = s.now)) (fun _ => ⟨rfl, .inl rfl⟩)
    ?_ (fun _ _ _ => ⟨rfl, .inl rfl⟩)
    (fun _ _ ht => ⟨(congrArg State.now (engineStep_forgetEngine ht) :), engineStep_lastCommMs ht⟩) s).2
  rintro s t u ⟨hnow, hst⟩ ⟨hnow', htu⟩
  refine ⟨hnow'.trans hnow, ?_⟩
  obtain htu | htu := htu
  · rw [htu]
    exact hst
  · exact .inr (htu.trans hnow)

/-! ## Requests and responses -/

theorem awaited_congr {s t : State} (h : t.pstate = s.pstate) : awaited t = awaited s := by
  simp only [awaited, h]

theorem awaited_idle {s : State} (hp : s.pstate = .idle) : awaited s = 0#16 := by simp only [awaited, hp]

theorem awaited_receiving {s : State} (hp : s.pstate = .receiving) : awaited s = 0#16 := by simp only [awaited, hp]

theorem awaited_validating {s : State} (hp : s.pstate = .validating) : awaited s = 0#16 := by simp only [awaited, hp]

theorem awaited_dispatching {s : State} {r : Request} (hp : s.pstate = .dispatching r) : awaited s = 1#16 := by
  simp only [awaited, hp]

theorem awaited_responding {s : State} {rbuf : List Byte} (hp : s.pstate = .responding rbuf) : awaited s = 1#16 := by
  simp only [awaited, hp]

/-- Where a SERVICE ends with `tx_ready`, no response is awaited (R180, R186). -/
theorem awaited_of_serviceEnd {s : State} (h : serviceEnd s = true) (hready : s.txReady = true) : awaited s = 0#16 := by
  cases hp : s.pstate with
  | idle => exact awaited_idle hp
  | receiving => exact awaited_receiving hp
  | responding rbuf => simp [serviceEnd, hp, hready] at h
  | validating | dispatching | halted => simp [serviceEnd, hp] at h

/-- The responses sent and still awaited, less the requests accepted, modulo 2^16 (R181). -/
def balance (s : State) : Counter := s.responsesSent + awaited s - s.requestsReceived

/-- From `s` to `t` the frames sent are counted one by one and the balance is kept (R146, R180, R181). -/
def Answers (s t : State) : Prop :=
  ∃ sent : List (List Byte), t.tx = s.tx ++ sent ∧
    t.responsesSent = s.responsesSent + BitVec.ofNat 16 sent.length ∧ balance t = balance s

/-- Where no frame is sent. -/
theorem Answers.of_no_frame {s t : State} (htx : t.tx = s.tx) (hsent : t.responsesSent = s.responsesSent)
    (hbal : balance t = balance s) : Answers s t :=
  ⟨[], by simp [htx], by simp [hsent], hbal⟩

/-- Where in addition no frame is accepted and none becomes or ceases to be awaited. -/
theorem Answers.of_same_counts {s t : State} (htx : t.tx = s.tx) (hsent : t.responsesSent = s.responsesSent)
    (hreq : t.requestsReceived = s.requestsReceived) (hawait : awaited t = awaited s) : Answers s t :=
  .of_no_frame htx hsent (by simp only [balance, hsent, hreq, hawait])

theorem Answers.trans {s t u : State} (h : Answers s t) (h' : Answers t u) : Answers s u := by
  obtain ⟨sent, htx, hcount, hbal⟩ := h
  obtain ⟨sent', htx', hcount', hbal'⟩ := h'
  refine ⟨sent ++ sent', by rw [htx', htx, List.append_assoc], ?_, hbal'.trans hbal⟩
  rw [hcount', hcount, List.length_append, BitVec.ofNat_add, BitVec.add_assoc]

/-- A drop awaits nothing; an accepted frame is counted and its response awaited (R146 to R148). -/
theorem validateStep_answers {s : State} (hp : s.pstate = .validating) : Answers s (validateStep s) := by
  have hs := awaited_validating hp
  obtain ⟨_, -, hv⟩ | ⟨-, hv⟩ | ⟨r, -, hv⟩ := validateStep_cases s <;> rw [hv]
  · exact .of_same_counts rfl rfl rfl ((awaited_idle rfl).trans hs.symm)
  · exact .of_same_counts rfl rfl rfl ((awaited_idle rfl).trans hs.symm)
  · refine .of_no_frame rfl rfl ?_
    have ht : awaited (acceptRequest r s) = 1#16 := awaited_dispatching rfl
    simp [balance, hs, ht]

/-- The frame sent was awaited (R180). -/
theorem sendResponse_answers {s : State} {rbuf : List Byte} (hp : s.pstate = .responding rbuf) :
    Answers s (sendResponse rbuf s) := by
  refine ⟨[rbuf], rfl, rfl, ?_⟩
  have ht : awaited (sendResponse rbuf s) = 0#16 := awaited_idle rfl
  simp [balance, awaited_responding hp, ht]

theorem engineStep_answers {s t : State} (h : engineStep s = some t) : Answers s t := by
  obtain ⟨hp, e, rest, -, rfl⟩ | ⟨hp, e, rest, -, rfl⟩ | ⟨hp, rfl⟩ | ⟨r, hp, rfl⟩ | ⟨rbuf, hp, -, rfl⟩ :=
    engineStep_cases h
  · have hs := awaited_idle hp
    rw [idle_take]
    cases e.kind with
    | byte | err => exact .of_same_counts rfl rfl rfl ((awaited_receiving rfl).trans hs.symm)
    | gap => exact .of_same_counts rfl rfl rfl (awaited_congr rfl)
  · have hs := awaited_receiving hp
    rw [receiving_take]
    cases e.kind with
    | byte | err => exact .of_same_counts rfl rfl rfl (awaited_congr rfl)
    | gap => exact .of_same_counts rfl rfl rfl ((awaited_validating rfl).trans hs.symm)
  · exact validateStep_answers hp
  · obtain ⟨payload, exc, w, ht, -⟩ := functionStep_shape (selectFunction_is_function s.cfg r) (s := s) rfl
    rw [ht]
    exact .of_same_counts rfl rfl rfl ((awaited_responding rfl).trans (awaited_dispatching hp).symm)
  · exact sendResponse_answers hp

theorem serviceStep_answers (s : State) : Answers s (serviceStep s) :=
  serviceStep_relates (fun _ => .of_same_counts rfl rfl rfl rfl) (fun _ _ _ => .trans)
    (fun _ _ _ => .of_same_counts rfl rfl rfl rfl) (fun _ _ => engineStep_answers) s

/-! ## The obligations -/

/-- Settles O33: SERVICE's bound is above its steps, so it ends where none is enabled. -/
theorem serviceRunsUntilNoStepIsEnabled : Obligations.ServiceRunsUntilNoStepIsEnabled := by
  unfold Obligations.ServiceRunsUntilNoStepIsEnabled
  intro s hh
  obtain ⟨harrival, hengine⟩ := serviceStep_stops s
  exact ⟨serviceStep s, exec_service hh, serviceEnd_serviceStep hh, hengine, harrival⟩

/-- Settles O37: each engine step keeps the balance, so a SERVICE does, and its end awaits nothing with `tx_ready`. -/
theorem everyAcceptedFrameIsAnsweredOnce : Obligations.EveryAcceptedFrameIsAnsweredOnce := by
  unfold Obligations.EveryAcceptedFrameIsAnsweredOnce
  intro s hh
  obtain ⟨sent, htx, hcount, hbal⟩ := serviceStep_answers s
  refine ⟨serviceStep s, sent, exec_service hh, htx, hcount, hbal, fun hready => ?_⟩
  have hready' : (serviceStep s).txReady = s.txReady := (congrArg State.txReady (serviceStep_forgetEngine s) :)
  exact awaited_of_serviceEnd (serviceEnd_serviceStep hh) (hready'.trans hready)

/-- Settles O34: the elements the engine does not write stay, the timestamp takes the time at most, and frames are only
added to those sent. -/
theorem serviceFrame : Obligations.ServiceFrame := by
  unfold Obligations.ServiceFrame
  intro s t h
  obtain ⟨-, rfl⟩ := unlessHalted_cases (f := serviceStep) h
  obtain ⟨hcfg, hcrc, htimeouts, htick, hcomm, hwdt, hnow, hunits, hestop, hready, hinit, hscript⟩ :=
    forgetEngine_eq_iff.mp (serviceStep_forgetEngine s)
  obtain ⟨sent, htx, -⟩ := serviceStep_answers s
  exact ⟨hcfg, hcrc, htimeouts, htick, hcomm, hwdt, hnow, hunits, hestop, hready, hinit, hscript,
    serviceStep_lastCommMs s, sent, htx⟩

/-- Settles O21: where each of the engine's steps leaves `pstate`. -/
theorem engineTransitionsAreTheTable : Obligations.EngineTransitionsAreTheTable := by
  unfold Obligations.EngineTransitionsAreTheTable
  intro s t h
  obtain ⟨hp, e, rest, -, rfl⟩ | ⟨hp, e, rest, -, rfl⟩ | ⟨hp, rfl⟩ | ⟨r, hp, rfl⟩ | ⟨rbuf, hp, hready, rfl⟩ :=
    engineStep_cases h
  · refine .inl ⟨hp, ?_⟩
    rw [idle_take]
    cases e.kind with
    | byte | err => exact .inr rfl
    | gap => exact .inl hp
  · refine .inr (.inl ⟨hp, ?_⟩)
    rw [receiving_take]
    cases e.kind with
    | byte | err => exact .inl hp
    | gap => exact .inr rfl
  · refine .inr (.inr (.inl ⟨hp, ?_⟩))
    obtain ⟨_, -, hv⟩ | ⟨-, hv⟩ | ⟨r, -, hv⟩ := validateStep_cases s <;> rw [hv]
    · exact .inl rfl
    · exact .inl rfl
    · exact .inr ⟨r, rfl⟩
  · obtain ⟨payload, exc, w, ht, -⟩ := functionStep_shape (selectFunction_is_function s.cfg r) (s := s) rfl
    rw [ht]
    exact .inr (.inr (.inr (.inl ⟨⟨r, hp⟩, crcAppend payload, rfl⟩)))
  · exact .inr (.inr (.inr (.inr ⟨⟨rbuf, hp⟩, hready, rfl⟩)))

/-- Settles O32: RESPONDING's step, which waits for `tx_ready`. -/
theorem respondingHandsTheFrameOver : Obligations.RespondingHandsTheFrameOver := by
  unfold Obligations.RespondingHandsTheFrameOver
  intro s rbuf hp
  exact ⟨engineStep_responding hp, engineStep_responding_wait hp⟩

end Sys2Proof.Machine
end

section
/-! The protocol path does not depend on the safety state (42_dispatch.md R182). -/

namespace Sys2Proof.Machine

/-! ## Forgetting the safety state before a step changes nothing but the safety state after it -/

theorem validateStep_forgetSafety (s : State) : validateStep (forgetSafety s) = forgetSafety (validateStep s) := by
  simp only [validateStep, forgetSafety]
  cases classify s.cfg s.curBad s.fbuf <;> rfl

theorem forgetSafety_cfg (s : State) : (forgetSafety s).cfg = s.cfg := rfl

/-- A write signals the latch, which no other function code touches (R167). -/
theorem functionStep_forgetSafety (i : Instr) (s : State) :
    forgetSafety (functionStep i (forgetSafety s)) = forgetSafety (functionStep i s) := by
  cases i with
  | readHolding a st n =>
    simp only [functionStep, readHoldingStep]
    cases checkRead st.toNat n.toNat <;> rfl
  | writeSingle a tg v =>
    simp only [functionStep, writeSingleStep, forgetSafety_cfg]
    cases checkWrite1 s.cfg tg.toNat v <;> rfl
  | writeMultiple a st n b d =>
    simp only [functionStep, writeMultipleStep, forgetSafety_cfg]
    cases checkWriteMultiple s.cfg st.toNat n.toNat b.toNat d <;> rfl
  | illegalFunction | reset | rxByte | rxGap | rxErr | service | tick | monEval | estopSet | estopClear | statsClear
  | crcInit | crcUpdate | reservedEvent => rfl

/-- Whether an engine step is enabled, and what it does outside the safety state, does not depend on the safety
state. -/
theorem engineStep_forgetSafety (s : State) :
    (engineStep (forgetSafety s)).map forgetSafety = (engineStep s).map forgetSafety := by
  cases hp : s.pstate with
  | idle =>
    cases hq : s.rxq with
    | nil => rw [engineStep_idle_nil hp hq, engineStep_idle_nil (by exact hp) (by exact hq)]
    | cons e rest =>
      rw [engineStep_idle_cons hp hq, engineStep_idle_cons (by exact hp) (by exact hq), idle_take, idle_take]
      cases e.kind <;> rfl
  | receiving =>
    cases hq : s.rxq with
    | nil => rw [engineStep_receiving_nil hp hq, engineStep_receiving_nil (by exact hp) (by exact hq)]
    | cons e rest =>
      rw [engineStep_receiving_cons hp hq, engineStep_receiving_cons (by exact hp) (by exact hq), receiving_take,
        receiving_take]
      cases e.kind <;> rfl
  | validating =>
    rw [engineStep_validating hp, engineStep_validating (by exact hp), validateStep_forgetSafety]
    rfl
  | dispatching r =>
    rw [engineStep_dispatching hp, engineStep_dispatching (by exact hp)]
    exact congrArg some (functionStep_forgetSafety _ s)
  | responding rbuf =>
    cases hready : s.txReady with
    | false => rw [engineStep_responding_wait hp hready, engineStep_responding_wait (by exact hp) (by exact hready)]
    | true =>
      rw [engineStep_responding hp hready, engineStep_responding (by exact hp) (by exact hready)]
      rfl
  | halted => simp only [engineStep, forgetSafety, hp]

theorem takeArrival_forgetSafety (s : State) : takeArrival (forgetSafety s) = (takeArrival s).map forgetSafety := by
  cases ha : s.arrivals with
  | nil => rw [takeArrival_nil ha, takeArrival_nil (by exact ha), Option.map_none]
  | cons x later =>
    simp only [takeArrival, forgetSafety, ha]
    split <;> rfl

theorem countArrivals_forgetSafety (s : State) : countArrivals (forgetSafety s) = forgetSafety (countArrivals s) := by
  cases ha : s.arrivals with
  | nil => rw [countArrivals_nil ha, countArrivals_nil (by exact ha)]
  | cons x later =>
    rw [countArrivals_cons ha, countArrivals_cons (by exact ha)]
    rfl

/-- SERVICE takes the same steps whatever the safety state (R182, R186). -/
theorem serviceLoop_forgetSafety (n : Nat) (s : State) :
    forgetSafety (serviceLoop n (forgetSafety s)) = forgetSafety (serviceLoop n s) := by
  induction n generalizing s with
  | zero => rfl
  | succ n ih =>
    have hstep := engineStep_forgetSafety s
    rw [serviceLoop, serviceLoop, takeArrival_forgetSafety]
    cases takeArrival s with
    | some t => exact ih t
    | none =>
      cases ht : engineStep s with
      | none =>
        rw [ht, Option.map_none, Option.map_eq_none_iff] at hstep
        simp only [hstep, Option.map_none]
        rfl
      | some t =>
        rw [ht, Option.map_some, Option.map_eq_some_iff] at hstep
        obtain ⟨u, hu, hut⟩ := hstep
        simp only [hu, Option.map_none]
        rw [← ih (countArrivals u), ← ih (countArrivals t), ← countArrivals_forgetSafety, hut,
          countArrivals_forgetSafety]

theorem serviceStep_forgetSafety (s : State) :
    forgetSafety (serviceStep (forgetSafety s)) = forgetSafety (serviceStep s) :=
  serviceLoop_forgetSafety (serviceBound s + 1) s

/-! ## The obligation -/

/-- Settles O38: both SERVICEs are that of the state with its safety part forgotten, up to that part. -/
theorem protocolIgnoresTheSafetyState : Obligations.ProtocolIgnoresTheSafetyState := by
  unfold Obligations.ProtocolIgnoresTheSafetyState
  intro s s' h hh
  have hp : s.pstate = s'.pstate := (congrArg State.pstate h :)
  refine ⟨serviceStep s, serviceStep s', exec_service hh, exec_service (hp ▸ hh), ?_⟩
  rw [← serviceStep_forgetSafety s, h, serviceStep_forgetSafety]

end Sys2Proof.Machine
end

section
/-! The safety monitor's events (43_monitor.md R201 to R209, R213): what each does outside HALTED, the ages its
conditions are computed from, and the fault-forcing output. -/

namespace Sys2Proof.Machine

/-! ## The events -/

theorem exec_tick (s : State) : exec .tick s = unlessHalted (fun s => { s with lastTickMs := s.now }) s := rfl

theorem exec_monEval (s : State) : exec .monEval s = unlessHalted (fun s => publish (evaluate s)) s := rfl

theorem exec_estopSet (s : State) : exec .estopSet s = unlessHalted setEstop s := rfl

theorem exec_estopClear (s : State) : exec .estopClear s = unlessHalted clearEstop s := rfl

theorem exec_statsClear (s : State) :
    exec .statsClear s =
      unlessHalted
        (fun s => { s with requestsReceived := 0#16, responsesSent := 0#16, crcErrors := 0#16, timeoutErrors := 0#16 })
        s := rfl

/-- MON_EVAL evaluates, then publishes (R202). -/
theorem exec_monEval_next {s : State} (h : s.pstate ≠ .halted) : exec .monEval s = .next (publish (evaluate s)) := by
  rw [exec_monEval, unlessHalted_next h]

theorem exec_monEval_cases {s t : State} (h : exec .monEval s = .next t) :
    s.pstate ≠ .halted ∧ t = publish (evaluate s) := by
  rw [exec_monEval] at h
  exact unlessHalted_cases h

theorem clearEstop_signal {s : State} (h : s.estopIn = true) : clearEstop s = s := by
  rw [clearEstop, if_pos h]

theorem clearEstop_noSignal {s : State} (h : s.estopIn = false) : clearEstop s = { s with estop := false } := by
  rw [clearEstop, if_neg (by simp [h])]

/-! ## The ages -/

/-- An age is the difference modulo 2^32 (R205). -/
theorem toNat_age (now t : Millis) : (age now t).toNat = (now.toNat + 2 ^ 32 - t.toNat) % 2 ^ 32 := by
  have ht := t.isLt
  rw [age, BitVec.toNat_sub]
  omega

/-- The clock read `d` milliseconds after `t` gives the age `d`, also when it has wrapped between (R205). -/
theorem toNat_age_add {d : Nat} (t : Millis) (h : d < 2 ^ 32) : (age (t + BitVec.ofNat 32 d) t).toNat = d := by
  rw [age, BitVec.add_comm, BitVec.add_sub_cancel, BitVec.toNat_ofNat, Nat.mod_eq_of_lt h]

theorem timedOut_iff {now t : Millis} {limit : Nat} : timedOut now t limit = true ↔ limit < (age now t).toNat :=
  decide_eq_true_iff

/-! ## The fault-forcing output -/

theorem forceFault_iff {s : State} :
    forceFault s = true ↔
      s.pstate = .halted ∨ s.commFault = true ∨ s.wdtFault = true ∨ s.estop = true ∨ s.estopIn = true := by
  simp only [forceFault, Bool.or_eq_true, decide_eq_true_eq, or_assoc]

/-! ## The obligations -/

/-- Settles O40: TICK is its effect outside HALTED. -/
theorem tickStoresTheTime : Obligations.TickStoresTheTime := by
  unfold Obligations.TickStoresTheTime
  intro s
  rw [exec_tick]
  exact ⟨unlessHalted_next, unlessHalted_halted⟩

/-- Settles O41: the register map is what the publication makes of it, and the two conditions are those of the
evaluation, whose ages are differences modulo 2^32. -/
theorem monEvalEvaluates : Obligations.MonEvalEvaluates := by
  unfold Obligations.MonEvalEvaluates
  intro s hh
  refine ⟨(publish (evaluate s)).reg, (evaluate s).commFault, (evaluate s).wdtFault, ?_, ?_, ?_⟩
  · rw [evaluate_commFault, timedOut_iff, toNat_age]
  · rw [evaluate_wdtFault, timedOut_iff, toNat_age]
  · rw [exec_monEval_next hh]
    simp [publish, evaluate]

/-- Settles O45: adding the elapsed time and subtracting the timestamp cancel modulo 2^32. -/
theorem agesAreExactAcrossTheWrap : Obligations.AgesAreExactAcrossTheWrap := by
  unfold Obligations.AgesAreExactAcrossTheWrap
  intro t d limit hd
  have hage := toNat_age_add t hd
  exact ⟨hage, by rw [timedOut_iff, hage]⟩

/-- Settles O46: ESTOP_SET is its effect outside HALTED; the latch and the input are two of `force_fault`'s disjuncts,
and the evaluation in MON_EVAL latches the input. -/
theorem estopSetLatches : Obligations.EstopSetLatches := by
  unfold Obligations.EstopSetLatches
  intro s
  rw [exec_estopSet]
  refine ⟨fun hh => ⟨unlessHalted_next hh, ?_⟩, unlessHalted_halted, fun hin => ?_, fun hin hh =>
    ⟨_, exec_monEval_next hh, ?_⟩⟩
  · exact forceFault_iff.mpr (.inr (.inr (.inr (.inl rfl))))
  · exact forceFault_iff.mpr (.inr (.inr (.inr (.inr hin))))
  · rw [publish_estop, evaluate_estop, hin, Bool.or_true]

/-- Settles O47: ESTOP_CLEAR is its effect outside HALTED, which looks at the input. -/
theorem estopClearNeedsTheSignalAbsent : Obligations.EstopClearNeedsTheSignalAbsent := by
  unfold Obligations.EstopClearNeedsTheSignalAbsent
  intro s
  rw [exec_estopClear]
  refine ⟨fun hh hin => ?_, fun hh hin => ?_, unlessHalted_halted⟩
  · rw [unlessHalted_next hh, clearEstop_noSignal hin]
  · rw [unlessHalted_next hh, clearEstop_signal hin]

/-- Settles O49: the output is defined as this disjunction. -/
theorem forceFaultIsTheDisjunction : Obligations.ForceFaultIsTheDisjunction := by
  unfold Obligations.ForceFaultIsTheDisjunction
  exact fun _ => forceFault_iff

/-- Settles O50: STATS_CLEAR is its effect outside HALTED. -/
theorem statsClearZeroesTheCounters : Obligations.StatsClearZeroesTheCounters := by
  unfold Obligations.StatsClearZeroesTheCounters
  intro s
  rw [exec_statsClear]
  exact ⟨unlessHalted_next, unlessHalted_halted⟩

end Sys2Proof.Machine
end

section
/-! The emergency-stop latch (43_monitor.md R206 to R208, 42_dispatch.md R167): what can clear it once it is set. -/

namespace Sys2Proof.Machine

/-! ## The writes of a request -/

/-- A write clears a set latch when it gives GLOBAL_ESTOP another value than 1 with the signal absent (R167). -/
theorem estopAfterWrite_clears {p : Params} {estopIn : Bool} {w : Nat × Word} :
    estopAfterWrite p estopIn true w = false ↔
      estopIn = false ∧ nameAt p w.1 = some .globalEstop ∧ w.2 ≠ 1#16 := by
  unfold estopAfterWrite
  by_cases hn : nameAt p w.1 = some .globalEstop <;> by_cases hv : w.2 = 1#16 <;> simp [hn, hv]

/-- When the writes of a request clear a set latch, one of them does. -/
theorem foldl_estopAfterWrite_clears {p : Params} {estopIn : Bool} {ws : List (Nat × Word)}
    (h : ws.foldl (estopAfterWrite p estopIn) true = false) :
    estopIn = false ∧ ∃ w ∈ ws, nameAt p w.1 = some .globalEstop ∧ w.2 ≠ 1#16 := by
  induction ws with
  | nil => cases h
  | cons w ws ih =>
    rw [List.foldl_cons] at h
    cases hw : estopAfterWrite p estopIn true w with
    | true =>
      rw [hw] at h
      obtain ⟨hin, x, hx, hclears⟩ := ih h
      exact ⟨hin, x, List.mem_cons_of_mem w hx, hclears⟩
    | false =>
      obtain ⟨hin, hclears⟩ := estopAfterWrite_clears.mp hw
      exact ⟨hin, w, List.mem_cons_self, hclears⟩

theorem storeWords_clears_estop {ws : List (Nat × Word)} {s : State} (hs : s.estop = true)
    (h : (storeWords ws s).estop = false) :
    s.estopIn = false ∧ ∃ w ∈ ws, nameAt s.cfg w.1 = some .globalEstop ∧ w.2 ≠ 1#16 := by
  rw [storeWords_estop, hs] at h
  exact foldl_estopAfterWrite_clears h

/-! ## The function codes -/

theorem readHoldingStep_estop (addr : Byte) (start qty : Word) (s : State) :
    (readHoldingStep addr start qty s).estop = s.estop := by
  unfold readHoldingStep
  split <;> rfl

theorem illegalFunctionStep_estop (addr fc : Byte) (s : State) : (illegalFunctionStep addr fc s).estop = s.estop := rfl

/-- A single write leaves the latch alone, or as storing its one word does. -/
theorem writeSingleStep_estop (addr : Byte) (target value : Word) (s : State) :
    (writeSingleStep addr target value s).estop = s.estop ∨
      (writeSingleStep addr target value s).estop = (storeWords [(target.toNat, value)] s).estop := by
  unfold writeSingleStep
  split
  · exact .inl rfl
  · exact .inr rfl

/-- A multiple write leaves the latch alone, or as storing its words does. -/
theorem writeMultipleStep_estop (addr : Byte) (start qty : Word) (bcount : Byte) (data : List Byte) (s : State) :
    (writeMultipleStep addr start qty bcount data s).estop = s.estop ∨
      (writeMultipleStep addr start qty bcount data s).estop =
        (storeWords (writePairs start.toNat qty.toNat data) s).estop := by
  unfold writeMultipleStep
  split
  · exact .inl rfl
  · exact .inr rfl

theorem writeSingleStep_clears_estop {addr : Byte} {target value : Word} {s : State} (hs : s.estop = true)
    (h : (writeSingleStep addr target value s).estop = false) :
    s.estopIn = false ∧ value ≠ 1#16 ∧ nameAt s.cfg target.toNat = some .globalEstop := by
  obtain hkeep | hstore := writeSingleStep_estop addr target value s
  · simp [hkeep, hs] at h
  · obtain ⟨hin, w, hw, hname, hvalue⟩ := storeWords_clears_estop hs (hstore ▸ h)
    obtain rfl := List.mem_singleton.mp hw
    exact ⟨hin, hvalue, hname⟩

theorem writeMultipleStep_clears_estop {addr : Byte} {start qty : Word} {bcount : Byte} {data : List Byte} {s : State}
    (hs : s.estop = true) (h : (writeMultipleStep addr start qty bcount data s).estop = false) :
    s.estopIn = false ∧ ∃ j, j < qty.toNat ∧ nameAt s.cfg (start.toNat + j) = some .globalEstop ∧
      valueAt data j ≠ 1#16 := by
  obtain hkeep | hstore := writeMultipleStep_estop addr start qty bcount data s
  · simp [hkeep, hs] at h
  · obtain ⟨hin, w, hw, hclears⟩ := storeWords_clears_estop hs (hstore ▸ h)
    obtain ⟨j, hj, rfl⟩ := mem_writePairs.mp hw
    exact ⟨hin, j, hj, hclears⟩

/-! ## SERVICE -/

/-- An engine step that clears a set latch found the signal absent. -/
theorem engineStep_clears_estop {s t : State} (ht : engineStep s = some t) (hs : s.estop = true)
    (h : t.estop = false) : s.estopIn = false := by
  have kept (hkeep : t.estop = s.estop) : s.estopIn = false := by simp [hkeep, hs] at h
  obtain ⟨-, e, rest, -, rfl⟩ | ⟨-, e, rest, -, rfl⟩ | ⟨-, rfl⟩ | ⟨r, -, rfl⟩ | ⟨rbuf, -, -, rfl⟩ := engineStep_cases ht
  · refine kept ?_
    rw [idle_take]
    cases e.kind <;> rfl
  · refine kept ?_
    rw [receiving_take]
    cases e.kind <;> rfl
  · refine kept ?_
    obtain ⟨_, -, hv⟩ | ⟨-, hv⟩ | ⟨_, -, hv⟩ := validateStep_cases s <;> rw [hv] <;> rfl
  · obtain ⟨payload, exc, w, hf, -⟩ := functionStep_shape (selectFunction_is_function s.cfg r) (s := s) rfl
    rw [hf] at h
    exact (storeWords_clears_estop hs h).1
  · exact kept rfl

/-- With the signal present from start to end a SERVICE keeps a set latch (R208, log 28). -/
theorem serviceStep_keeps_estop {s : State} (hin : s.estopIn = true) (hs : s.estop = true) :
    (serviceStep s).estop = true := by
  refine (serviceStep_relates
    (R := fun s t => t.estopIn = s.estopIn ∧ (s.estopIn = true → s.estop = true → t.estop = true))
    (fun _ => ⟨rfl, fun _ hs => hs⟩) ?_ (fun _ _ _ => ⟨rfl, fun _ hs => hs⟩) ?_ s).2 hin hs
  · rintro s t u ⟨hst, ht⟩ ⟨htu, hu⟩
    exact ⟨htu.trans hst, fun hin hs => hu (hst.trans hin) (ht hin hs)⟩
  · refine fun s t hstep => ⟨(congrArg State.estopIn (engineStep_forgetEngine hstep) :), fun hin hs => ?_⟩
    by_contra hclear
    simp [engineStep_clears_estop hstep hs (Bool.eq_false_of_not_eq_true hclear)] at hin

theorem serviceStep_clears_estop {s : State} (hs : s.estop = true) (h : (serviceStep s).estop = false) :
    s.estopIn = false := by
  by_contra hin
  simp [serviceStep_keeps_estop (Bool.eq_true_of_not_eq_false hin) hs] at h

theorem clearEstop_clears_estop {s : State} (hs : s.estop = true) (h : (clearEstop s).estop = false) :
    s.estopIn = false := by
  by_contra hin
  simp [clearEstop_signal (Bool.eq_true_of_not_eq_false hin), hs] at h

/-! ## The obligation -/

/-- Settles O48: instruction by instruction; the function codes and SERVICE clear the latch only by a write to
GLOBAL_ESTOP with the signal absent, ESTOP_CLEAR only with the signal absent, and the others but RESET keep it set. -/
theorem nothingElseClearsTheEstopLatch : Obligations.NothingElseClearsTheEstopLatch := by
  unfold Obligations.NothingElseClearsTheEstopLatch
  intro i s t h hs ht
  cases i with
  | reset => exact .inl rfl
  | estopClear =>
    rw [exec_estopClear] at h
    obtain ⟨-, rfl⟩ := unlessHalted_cases h
    exact .inr ⟨clearEstop_clears_estop hs ht, .inl rfl⟩
  | service =>
    obtain ⟨-, rfl⟩ := unlessHalted_cases (f := serviceStep) h
    exact .inr ⟨serviceStep_clears_estop hs ht, .inr (.inl rfl)⟩
  | writeSingle addr a v =>
    obtain ⟨-, rfl⟩ := whenDispatching_cases (f := writeSingleStep addr a v) h
    obtain ⟨hin, hclears⟩ := writeSingleStep_clears_estop hs ht
    exact .inr ⟨hin, .inr (.inr (.inl ⟨addr, a, v, rfl, hclears⟩))⟩
  | writeMultiple addr start qty bcount data =>
    obtain ⟨-, rfl⟩ := whenDispatching_cases (f := writeMultipleStep addr start qty bcount data) h
    obtain ⟨hin, j, hj, hclears⟩ := writeMultipleStep_clears_estop hs ht
    exact .inr ⟨hin, .inr (.inr (.inr ⟨addr, start, qty, bcount, data, j, rfl, hj, hclears⟩))⟩
  | readHolding addr start qty =>
    obtain ⟨-, rfl⟩ := whenDispatching_cases (f := readHoldingStep addr start qty) h
    simp [readHoldingStep_estop, hs] at ht
  | illegalFunction addr fc =>
    obtain ⟨-, rfl⟩ := whenDispatching_cases (f := illegalFunctionStep addr fc) h
    simp [illegalFunctionStep_estop, hs] at ht
  | monEval =>
    obtain ⟨-, rfl⟩ := exec_monEval_cases h
    simp [hs] at ht
  | rxByte | rxGap | rxErr =>
    cases h
    simp [hs] at ht
  | tick | estopSet | statsClear | crcInit | crcUpdate =>
    simp only [exec] at h
    obtain ⟨-, rfl⟩ := unlessHalted_cases h
    simp [hs] at ht
  | reservedEvent => cases h

end Sys2Proof.Machine
end

section
/-! What MON_EVAL publishes (43_monitor.md R210 to R212): the System Status word and the words beside it, each at the
address that `FIELD_MAP` gives its name. -/

namespace Sys2Proof.Machine

/-! ## The addresses of the published names -/

/-- `FIELD_MAP` gives every published name an address (R62). -/
theorem addressOf_published {p : Params} (hp : paramsOk p = true) {n : FieldName} (hn : n ∈ publishedNames) :
    ∃ a, addressOf p n = some a := by
  have hone : p.fieldMap.countP (fun e => e.name == n) = 1 := by
    simp only [paramsOk, fieldMapOk, Bool.and_eq_true, List.all_eq_true, beq_iff_eq] at hp
    exact hp.2.1.2 n hn
  obtain ⟨e, he, hname⟩ := List.countP_pos_iff.mp (hone ▸ Nat.one_pos)
  obtain ⟨e', he'⟩ := Option.isSome_iff_exists.mp
    (List.find?_isSome (p := fun e : FieldEntry => e.name == n).mpr ⟨e, he, hname⟩)
  exact ⟨e'.addr, by rw [addressOf, he', Option.map_some]⟩

/-- `FIELD_MAP` gives no two names the same address (R62, log 19). -/
theorem addressOf_injective {p : Params} (hp : paramsOk p = true) {n n' : FieldName} {a : Nat}
    (h : addressOf p n = some a) (h' : addressOf p n' = some a) : n = n' := by
  have hd : (p.fieldMap.map (·.addr)).Nodup := by
    simp only [paramsOk, fieldMapOk, Bool.and_eq_true, decide_eq_true_eq] at hp
    exact hp.2.1.1.1.1.2
  obtain ⟨e, he, rfl⟩ := Option.map_eq_some_iff.mp h
  obtain ⟨e', he', haddr⟩ := Option.map_eq_some_iff.mp h'
  obtain rfl := List.inj_on_of_nodup_map hd (List.mem_of_find?_eq_some he') (List.mem_of_find?_eq_some he) haddr
  have hn : e'.name = n := by simpa using List.find?_some he
  have hn' : e'.name = n' := by simpa using List.find?_some he'
  exact hn.symm.trans hn'

/-! ## The words that `publish` writes -/

theorem mem_publishedPairs {s : State} {w : Nat × Word} :
    w ∈ publishedPairs s ↔ ∃ n ∈ publishedNames, addressOf s.cfg n = some w.1 ∧ w.2 = publishedValue s n := by
  obtain ⟨a, v⟩ := w
  simp [publishedPairs, List.mem_filterMap, eq_comm]

theorem publishedPairs_le {s : State} (hp : paramsOk s.cfg = true) :
    ∀ w ∈ publishedPairs s, w.1 ≤ Config.lastAddress := by
  intro w hw
  obtain ⟨n, -, ha, -⟩ := mem_publishedPairs.mp hw
  exact addressOf_le hp ha

/-- The published words stand at distinct addresses. -/
theorem publishedPairs_nodup {s : State} (hp : paramsOk s.cfg = true) : ((publishedPairs s).map Prod.fst).Nodup := by
  have haddrs : (publishedPairs s).map Prod.fst = publishedNames.filterMap (addressOf s.cfg) := by
    simp [publishedPairs, List.map_filterMap, Function.comp_def]
  rw [haddrs]
  exact List.Nodup.filterMap (fun _ _ _ h h' => addressOf_injective hp h h') (by decide)

theorem publish_wf {s : State} (hp : paramsOk s.cfg = true) (hreg : s.reg.wf = true) : (publish s).reg.wf = true :=
  memWrite_wf hreg (publishedPairs_le hp)

/-- `publish` stores each published value at its name's address (R211). -/
theorem publish_read {s : State} (hp : paramsOk s.cfg = true) (hreg : s.reg.wf = true) {n : FieldName} {a : Nat}
    (hn : n ∈ publishedNames) (ha : addressOf s.cfg n = some a) : (publish s).reg.read a = publishedValue s n :=
  memWrite_read_mem (p := (a, publishedValue s n)) hreg (publishedPairs_le hp) (publishedPairs_nodup hp)
    (mem_publishedPairs.mpr ⟨n, hn, ha, rfl⟩)

/-- `publish` leaves every other word alone (R211). -/
theorem publish_read_other {s : State} (hp : paramsOk s.cfg = true) (hreg : s.reg.wf = true) {a : Nat}
    (h : ∀ n ∈ publishedNames, addressOf s.cfg n ≠ some a) : (publish s).reg.read a = s.reg.read a := by
  refine memWrite_read_other hreg (publishedPairs_le hp) fun w hw hwa => ?_
  obtain ⟨n, hn, ha, -⟩ := mem_publishedPairs.mp hw
  exact h n hn (hwa ▸ ha)

/-! ## The active units -/

/-- The published count is that of the RUNNING units (R211). -/
theorem toNat_activeCount (us : Units) :
    (activeCount us).toNat = (if us[0] = .running then 1 else 0) + (if us[1] = .running then 1 else 0) +
      (if us[2] = .running then 1 else 0) + (if us[3] = .running then 1 else 0) := by
  have hle : [us[0], us[1], us[2], us[3]].countP (· == .running) ≤ 4 := List.countP_le_length
  rw [activeCount_eq, BitVec.toNat_ofNat, Nat.mod_eq_of_lt (by omega)]
  simp only [List.countP_cons, List.countP_nil, beq_iff_eq]
  omega

/-- Conditions at the four lowest bits. -/
theorem toNat_four_statusBits : ∀ b0 b1 b2 b3 : Bool,
    (statusBit b0 0 ||| (statusBit b1 1 ||| (statusBit b2 2 ||| (statusBit b3 3 ||| 0#16)))).toNat =
      (if b0 then 1 else 0) + (if b1 then 2 else 0) + (if b2 then 4 else 0) + (if b3 then 8 else 0) := by
  decide

/-- The published mask has the weight of bit `n - 1` for each RUNNING unit `n` (R211). -/
theorem toNat_activeMask (us : Units) :
    (activeMask us).toNat = (if us[0] = .running then 1 else 0) + (if us[1] = .running then 2 else 0) +
      (if us[2] = .running then 4 else 0) + (if us[3] = .running then 8 else 0) := by
  rw [activeMask_eq, toNat_four_statusBits]
  simp only [beq_iff_eq]

/-! ## The System Status word with the default `STATUS_BITS` -/

theorem getLsbD_statusBit (b : Bool) {i : Nat} (hi : i < 16) (j : Nat) :
    (statusBit b i).getLsbD j = (b && decide (j = i)) := by
  cases b with
  | false => simp [statusBit]
  | true =>
    rw [statusBit, if_pos rfl, ← BitVec.twoPow_eq, BitVec.getLsbD_twoPow]
    simp [hi, eq_comm]

/-- Each condition stands at its bit, OK at bit 0, and no other bit is set (R90, R210). -/
theorem getLsbD_statusOf_default (es comm fault wdt : Bool) (j : Nat) :
    (statusOf Config.defaultStatusBits es comm fault wdt).getLsbD j =
      (es && decide (j = 1) || comm && decide (j = 2) || fault && decide (j = 3) || wdt && decide (j = 4) ||
        !(es || comm || fault || wdt) && decide (j = 0)) := by
  simp [statusOf, Config.defaultStatusBits, getLsbD_statusBit]

/-- The word is never 0: with no condition's bit set it has OK (R210). -/
theorem statusOf_default_ne_zero : ∀ es comm fault wdt : Bool,
    statusOf Config.defaultStatusBits es comm fault wdt ≠ 0#16 := by decide

/-- The status is that of no condition, or of a unit's fault alone, exactly when nothing else holds (R212). -/
theorem statusOf_default_ok_or_fault : ∀ es comm unit wdt : Bool,
    (statusOf Config.defaultStatusBits es comm (unit || wdt) wdt = 0x0001#16 ∨
      statusOf Config.defaultStatusBits es comm (unit || wdt) wdt = 0x0008#16) ↔
      comm = false ∧ wdt = false ∧ es = false := by
  decide

/-! ## The obligations -/

/-- Settles O43: the word read bit by bit. -/
theorem statusWordBitByBit : Obligations.StatusWordBitByBit := by
  unfold Obligations.StatusWordBitByBit
  intro s hbits
  rw [statusWord, hbits]
  simp only [getLsbD_statusOf_default]
  refine ⟨by simp, by simp, by simp [unitFault_iff, or_assoc], by simp, by simp, fun j hj => ?_,
    statusOf_default_ne_zero _ _ _ _⟩
  simp [show j ≠ 0 by omega, show j ≠ 1 by omega, show j ≠ 2 by omega, show j ≠ 3 by omega, show j ≠ 4 by omega]

/-- Settles O42: MON_EVAL publishes after it evaluates, at four distinct addresses. -/
theorem monEvalPublishesTheStatusWords : Obligations.MonEvalPublishesTheStatusWords := by
  unfold Obligations.MonEvalPublishesTheStatusWords
  intro s hh hp hreg
  obtain ⟨a0, h0⟩ := addressOf_published hp (n := .sysStatus) (by decide)
  obtain ⟨a1, h1⟩ := addressOf_published hp (n := .commErrCount) (by decide)
  obtain ⟨a2, h2⟩ := addressOf_published hp (n := .activeCount) (by decide)
  obtain ⟨a3, h3⟩ := addressOf_published hp (n := .activeMask) (by decide)
  have published {n : FieldName} {a : Nat} := publish_read (s := evaluate s) (n := n) (a := a) hp hreg
  refine ⟨publish (evaluate s), a0, a1, a2, a3, exec_monEval_next hh, publish_wf (s := evaluate s) hp hreg, h0, h1, h2,
    h3, published (by decide) h0, ?_, ?_, ?_, fun a n0 n1 n2 n3 => publish_read_other (s := evaluate s) hp hreg ?_⟩
  · rw [published (by decide) h1]
    exact BitVec.setWidth_eq _
  · rw [published (by decide) h2]
    exact toNat_activeCount s.unitState
  · rw [published (by decide) h3]
    exact toNat_activeMask s.unitState
  · simp [publishedNames, h0, h1, h2, h3, n0.symm, n1.symm, n2.symm, n3.symm]

/-- Settles O44: the published word is the status of the flags just evaluated, whose conditions but a unit's fault are
those that force the fault outside HALTED. -/
theorem publishedStatusTellsForceFault : Obligations.PublishedStatusTellsForceFault := by
  unfold Obligations.PublishedStatusTellsForceFault
  intro s t a hp hreg hbits ha h
  obtain ⟨hh, rfl⟩ := exec_monEval_cases h
  have hread : (publish (evaluate s)).reg.read a = statusWord (evaluate s) :=
    publish_read (s := evaluate s) hp hreg (n := .sysStatus) (by decide) ha
  rw [hread, statusWord, evaluate_cfg, hbits, statusOf_default_ok_or_fault,
    ← Bool.not_eq_true (forceFault _), forceFault_iff]
  simp [hh]

end Sys2Proof.Machine
end

section
/-! Where a step stops (60_exceptions.md R256): a fault comes from the parameters alone, a refusal from a reserved event
code or from HALTED (30_encoding.md R85, 70_reset_and_hazards.md R272). -/

namespace Sys2Proof.Machine

/-! ## Events that only HALTED refuses -/

/-- An answer at `s` that is a next state or HALTED's refusal (R272). -/
def RefusedOnlyIfHalted (s : State) (r : Result) : Prop :=
  (∃ t : State, r = .next t) ∨ (r = .refused .halted ∧ s.pstate = .halted)

theorem unlessHalted_refusedOnlyIfHalted (f : State → State) (s : State) :
    RefusedOnlyIfHalted s (unlessHalted f s) := by
  by_cases hh : s.pstate = .halted
  · exact .inr ⟨unlessHalted_halted hh, hh⟩
  · exact .inl ⟨f s, unlessHalted_next hh⟩

/-- The events 0x0 to 0xB: RESET and the front-end's three answer in every state, the block's own run `unlessHalted`
(R84, R85). -/
theorem exec_decodePort_refusedOnlyIfHalted {code : BitVec 4} (h : code.toNat < 12) (b : Byte) (s : State) :
    RefusedOnlyIfHalted s (exec (decodePort code b) s) := by
  unfold decodePort
  split
  case h_1 | h_2 | h_3 | h_4 => exact .inl ⟨_, rfl⟩
  case h_13 =>
    simp only [imp_false] at *
    omega
  all_goals
    simp only [exec]
    exact unlessHalted_refusedOnlyIfHalted _ s

/-! ## What a stimulus has the machine run -/

/-- A stimulus runs nothing, MON_EVAL (the strobe, R202), or the event whose code it carries (R84). -/
theorem fetchStimulus_instruction (s : State) :
    (∃ t : State, fetchStimulus s = .idle t) ∨
    (∃ rest : List Stimulus, fetchStimulus s = .run .monEval { s with script := rest }) ∨
    ∃ (code : BitVec 4) (b : Byte) (rest : List Stimulus),
      s.script = .event code b :: rest ∧ fetchStimulus s = .run (decodePort code b) { s with script := rest } := by
  cases hs : s.script with
  | nil => exact .inl ⟨_, fetchStimulus_nil hs⟩
  | cons x rest =>
    cases x with
    | event code b => exact .inr (.inr ⟨code, b, rest, rfl, by simp only [fetchStimulus, hs]⟩)
    | strobe =>
      cases hw : s.cfg.wdtIndependent with
      | true => exact .inr (.inl ⟨rest, by rw [fetchStimulus_strobe hs, if_pos hw]⟩)
      | false => exact .inl ⟨_, by rw [fetchStimulus_strobe hs, if_neg (by simp [hw])]⟩
    | clock | setEstopIn | setTxReady | setInitOk | setUnit | outsideWrite | scheduleArrival =>
      exact .inl ⟨_, fetchStimulus_input hs trivial⟩

/-! ## Where a step answers without a stimulus -/

theorem step_fault {s : State} (hp : paramsOk s.cfg = false) : step s = .fault .parameterConstraint := by
  rw [step, if_neg (by simp [hp])]

/-- The function code that a request selects is run in DISPATCHING, where it answers (R174). -/
theorem step_dispatching {s : State} {r : Request} (hp : paramsOk s.cfg = true) (hr : s.pstate = .dispatching r) :
    step s = .next (functionStep (selectFunction s.cfg r) s) := by
  calc step s = exec (selectFunction s.cfg r) s := step_of_fetch_run hp (by simp only [fetch, hr])
    _ = whenDispatching (functionStep (selectFunction s.cfg r)) s := exec_function (selectFunction_is_function s.cfg r)
    _ = .next (functionStep (selectFunction s.cfg r) s) := whenDispatching_next hr

/-! ## The obligation -/

/-- Settles O57: the validation and a selected function code always answer; outside them a step does what the next
stimulus says, and of the instructions a stimulus can run, HALTED or a reserved code refuses. -/
theorem stepsStopOnlyWhereTheSpecSays : Obligations.StepsStopOnlyWhereTheSpecSays := by
  unfold Obligations.StepsStopOnlyWhereTheSpecSays
  refine fun s => ⟨step_fault, fun hp => ?_⟩
  by_cases hv : s.pstate = .validating
  · exact .inl ⟨_, step_of_fetch_validate hp (by simp only [fetch, hv])⟩
  by_cases hd : ∃ r, s.pstate = .dispatching r
  · obtain ⟨r, hr⟩ := hd
    exact .inl ⟨_, step_dispatching hp hr⟩
  have hf := fetch_eq_fetchStimulus hv (not_exists.mp hd)
  obtain ⟨t, ht⟩ | ⟨rest, ht⟩ | ⟨code, b, rest, hs, ht⟩ := fetchStimulus_instruction s
  · exact .inl ⟨t, step_of_fetch_idle hp (hf.trans ht)⟩
  · rw [step_of_fetch_run hp (hf.trans ht), exec_monEval, ← or_assoc]
    exact .inl (unlessHalted_refusedOnlyIfHalted _ { s with script := rest })
  · rw [step_of_fetch_run hp (hf.trans ht), ← or_assoc]
    by_cases hcode : code.toNat < 12
    · exact .inl (exec_decodePort_refusedOnlyIfHalted hcode b { s with script := rest })
    · have hres := Nat.le_of_not_lt hcode
      exact .inr ⟨congrArg (exec · _) (decodePort_reserved hres b), code, b, rest, hs, hres⟩

end Sys2Proof.Machine
end

section
/-! RESET and HALTED (70_reset_and_hazards.md R270, R272): RESET's whole effect with the fault-forcing output after it,
and what still has a step in HALTED. -/

namespace Sys2Proof.Machine

/-! ## RESET -/

/-- RESET clears the three latches, so the output is what HALTED and `estop_in` make of it (R209, R270). -/
theorem forceFault_resetStep (s : State) : forceFault (resetStep s) = (!s.initOk || s.estopIn) := by
  cases hi : s.initOk with
  | true => simp [forceFault, hi]
  | false => exact forceFault_iff.mpr (.inl (by simp [hi]))

/-- Settles O51: the next state is RESET's effect, and the output is computed from it. -/
theorem resetSetsEveryElement : Obligations.ResetSetsEveryElement := by
  unfold Obligations.ResetSetsEveryElement
  exact fun s => ⟨resetStep s, rfl, rfl, forceFault_resetStep s⟩

/-! ## HALTED -/

/-- Settles O54: instruction by instruction; a function code has a step only in DISPATCHING, a block event only outside
HALTED, and the front-end's three push onto the queue. -/
theorem haltedIsLeftOnlyByReset : Obligations.HaltedIsLeftOnlyByReset := by
  unfold Obligations.HaltedIsLeftOnlyByReset
  intro i s t hh h
  cases i with
  | reset => exact .inl rfl
  | rxByte | rxGap | rxErr =>
    cases h
    exact .inr rfl
  | readHolding | writeSingle | writeMultiple | illegalFunction =>
    obtain ⟨⟨r, hr⟩, -⟩ := whenDispatching_cases h
    simp [hh] at hr
  | service | tick | monEval | estopSet | estopClear | statsClear | crcInit | crcUpdate =>
    simp only [exec] at h
    exact absurd hh (unlessHalted_cases h).1
  | reservedEvent => cases h

end Sys2Proof.Machine
end

section
/-! The canonical form of the register map (20_memory.md R50, logs 3 and 27): the words it reads as determine the map. -/

namespace Sys2Proof.Machine

/-! ## Where a canonical map reads a listed word -/

theorem Memory.read_cons_self (a : Nat) (v : Word) (rest : Memory) : Memory.read ((a, v) :: rest) a = v := by
  simp only [Memory.read, if_true]

theorem Memory.read_cons_of_ne {a b : Nat} (h : b ≠ a) (v : Word) (rest : Memory) :
    Memory.read ((a, v) :: rest) b = Memory.read rest b := by
  simp only [Memory.read, h, if_false]

/-- A canonical map's first address is at most any address that does not read as unwritten. -/
theorem Memory.first_le_of_read_ne {n a b : Nat} {v : Word} {rest : Memory}
    (hm : Memory.wfFrom n ((a, v) :: rest) = true) (h : Memory.read ((a, v) :: rest) b ≠ Config.unwrittenWord) :
    a ≤ b := by
  obtain ⟨-, hrest⟩ := Memory.wfFrom_cons.mp hm
  exact le_of_not_gt fun hlt => h (Memory.read_below (Memory.wfFrom_cons.mpr ⟨le_rfl, hrest⟩) hlt)

/-! ## Maps that read alike -/

/-- The tails of two canonical maps read alike when the maps do and begin at one address, which neither tail lists. -/
theorem Memory.tails_read_alike {a : Nat} {v w : Word} {rest rest' : Memory}
    (hr : Memory.wfFrom (a + 1) rest = true) (hr' : Memory.wfFrom (a + 1) rest' = true)
    (h : ∀ b : Nat, Memory.read ((a, v) :: rest) b = Memory.read ((a, w) :: rest') b) (b : Nat) :
    Memory.read rest b = Memory.read rest' b := by
  by_cases hb : b = a
  · have hlt : b < a + 1 := by omega
    rw [Memory.read_below hr hlt, Memory.read_below hr' hlt]
  · simpa only [Memory.read_cons_of_ne hb] using h b

/-- Canonical maps that read alike are equal, by induction over the entries: the first addresses bound each other, since
each reads as a word other than the unwritten one in both maps. -/
theorem Memory.eq_of_read_eq_from {n : Nat} {m m' : Memory} (hm : Memory.wfFrom n m = true)
    (hm' : Memory.wfFrom n m' = true) (h : ∀ a : Nat, Memory.read m a = Memory.read m' a) : m = m' := by
  induction m generalizing n m' with
  | nil =>
    cases m' with
    | nil => rfl
    | cons c' rest' =>
      obtain ⟨b, w⟩ := c'
      obtain ⟨-, -, hw, -⟩ := Memory.wfFrom_cons.mp hm'
      exact absurd ((Memory.read_cons_self b w rest').symm.trans (h b).symm) hw
  | cons c rest ih =>
    obtain ⟨a, v⟩ := c
    have ⟨_, _, hv, hr⟩ := Memory.wfFrom_cons.mp hm
    have hra := Memory.read_cons_self a v rest
    cases m' with
    | nil => exact absurd (hra.symm.trans (h a)) hv
    | cons c' rest' =>
      obtain ⟨b, w⟩ := c'
      have ⟨_, _, hw, hr'⟩ := Memory.wfFrom_cons.mp hm'
      have hrb := Memory.read_cons_self b w rest'
      have hab : a ≤ b := Memory.first_le_of_read_ne hm (by rwa [h, hrb])
      have hba : b ≤ a := Memory.first_le_of_read_ne hm' (by rwa [← h, hra])
      obtain rfl := le_antisymm hab hba
      obtain rfl : v = w := hra.symm.trans ((h a).trans hrb)
      rw [ih hr hr' (Memory.tails_read_alike hr hr' h)]

/-- Settles O14: the canonical form is its bound from address 0. -/
theorem registerMapsThatReadAlikeAreEqual : Obligations.RegisterMapsThatReadAlikeAreEqual := by
  unfold Obligations.RegisterMapsThatReadAlikeAreEqual
  exact fun _ _ => Memory.eq_of_read_eq_from

end Sys2Proof.Machine
end
